-- ==== Sys2Proof/Word.lean ====
section
/-! DEFINITION. The word types the spec fixes (R7): 16-bit words, 14-bit halves, 28-bit tuning words, 2-bit tags. -/

namespace Sys2Proof

/-- A transferred word, and the Control Register: exactly 16 bits (R7, R30). -/
abbrev Word := BitVec 16

/-- One half of a tuning word, as it travels under its tag (R7, R88). -/
abbrev Half := BitVec 14

/-- A frequency tuning word: 28 bits, unsigned (R7, R40). -/
abbrev TuningWord := BitVec 28

/-- The two top bits of a device word (R62). -/
abbrev Tag := BitVec 2

end Sys2Proof
end

