-- ==== Sys2Proof/Syntax.lean ====
section
/-! DEFINITION. The vocabulary of the block: lines, banks, the command record, the instructions (one constructor per
row of the opcode table), and what a command returns to the host. -/

namespace Sys2Proof

/-- The three GPIO lines of the Bus Configuration (R23, R60). -/
inductive Line where
  | clk
  | data
  | cs
deriving DecidableEq, Repr

/-- The two frequency register banks (R7, R84). -/
inductive Bank where
  | bank0
  | bank1
deriving DecidableEq, Repr

/-- The command record `{op, word, channel, mode, freq}` on the command port (R80, R82). Operands are typed values: an
integer or rational operand cannot be truncated on the port. -/
structure Command where
  op : BitVec 3
  word : Int
  channel : Int
  mode : BitVec 3
  freq : Rat
deriving DecidableEq, Repr

/-- One constructor per row of the opcode table: the six commands and the two reserved codes of the command port (R81),
and the device words that the waveform device receives over the wire (R86, R88). -/
inductive Instr where
  /-- TRANSFER: send one raw word through the channel (R130). -/
  | transfer (word : Int)
  /-- BEGIN: 28-bit write mode, then RESET (R156). -/
  | beginCmd
  /-- RESET: pulse the device's reset flag (R153). -/
  | resetCmd
  /-- SET_MODE: select the output mode by its 3-bit mode code (R162). -/
  | setMode (mode : BitVec 3)
  /-- SET_FREQUENCY: load a 28-bit tuning word into one register bank (R175). -/
  | setFrequency (channel : Int) (freq : Rat)
  /-- SET_ACTIVE_FREQUENCY: choose the register bank that drives the output (R165). -/
  | setActiveFrequency (channel : Int)
  /-- Reserved command code `0b110` (R94). -/
  | reserved6
  /-- Reserved command code `0b111` (R94). -/
  | reserved7
  /-- DW_CTRL: a control word as the device receives it; bits 13:0 (R86). -/
  | dwCtrl (fields : BitVec 14)
  /-- DW_FREQ0_LSB: the first half in sequence under `FREQ_TAG[0]` (R88, R90). -/
  | dwFreq0Lsb (half : Half)
  /-- DW_FREQ0_MSB: the second half in sequence under `FREQ_TAG[0]` (R88, R90). -/
  | dwFreq0Msb (half : Half)
  /-- DW_FREQ1_LSB: the first half in sequence under `FREQ_TAG[1]` (R88, R90). -/
  | dwFreq1Lsb (half : Half)
  /-- DW_FREQ1_MSB: the second half in sequence under `FREQ_TAG[1]` (R88, R90). -/
  | dwFreq1Msb (half : Half)
deriving DecidableEq, Repr

/-- The causes of INVALID_ARGUMENT, each with the value R201 says is recorded. -/
inductive Cause where
  /-- The channel operand is neither 0 nor 1. -/
  | channel (value : Int)
  /-- The mode code is 5, 6 or 7. -/
  | unsupportedMode (code : BitVec 3)
  /-- The word operand is outside 0..65535. -/
  | wordRange (value : Int)
  /-- The frequency operand is negative. -/
  | freqRange (value : Rat)
  /-- The candidate tuning word needs more than 28 bits under REJECT. -/
  | freqOverflow (candidate : Nat)
deriving DecidableEq, Repr

/-- The one status a command returns to the host when it ends (R200). -/
inductive Status where
  | ok
  | invalidArgument (cause : Cause)
  | hardwareIoFailure (line : Line)
deriving DecidableEq, Repr

end Sys2Proof
end

