-- ==== Sys2Proof/Config.lean ====
section
/-! DEFINITION. The configuration record `Cfg` of R6, as plain data, and the free values of the model (opaque, no body). -/

namespace Sys2Proof

/-- `CPHA` (R6): on which clock edge of a bit the device samples. -/
inductive Phase where
  /-- `CPHA = 0`: sample on the first edge. -/
  | first
  /-- `CPHA = 1`: sample on the second edge. -/
  | second
deriving DecidableEq, Repr

/-- `ORDER` (R6, R63): the order of the bits on the wire. -/
inductive BitOrder where
  | msbFirst
  | lsbFirst
deriving DecidableEq, Repr

/-- `OVERFLOW_POLICY` (R6, R170); wrapping is not a policy. -/
inductive OverflowPolicy where
  | reject
  | saturate
deriving DecidableEq, Repr

/-- `TUNING_ROUND` (R6, R173): the default rounding, or any other function, named by a number and left free
(`Config.customRound`), so that the configuration stays plain data. -/
inductive Rounding where
  | nearestTiesEven
  | custom (id : Nat)
deriving DecidableEq, Repr

/-- `CR_LAYOUT` (R31): the bit position of each of the ten Control Register fields. -/
structure CrLayout where
  b28 : Nat
  hlb : Nat
  fselect : Nat
  pselect : Nat
  reset : Nat
  sleep1 : Nat
  sleep12 : Nat
  opbiten : Nat
  div2 : Nat
  mode : Nat
deriving DecidableEq, Repr

/-- `MODE_PATTERN` (R35, R85): the five named patterns. -/
structure ModePatterns where
  sine : Word
  triangle : Word
  square1 : Word
  square2 : Word
  off : Word
deriving DecidableEq, Repr

/-- The configuration record (R6, R22, R23): a parameter of the step, fixed when the instance is constructed.
Durations are exact rationals, in seconds. -/
structure Cfg where
  /-- `CLK_PIN`: the driver's identifier of the clock line. -/
  clkPin : Nat
  /-- `DATA_PIN`. -/
  dataPin : Nat
  /-- `CS_PIN`. -/
  csPin : Nat
  /-- `CPOL`: the idle level of the clock line, `true` for 1. -/
  cpol : Bool
  /-- `CPHA`. -/
  cpha : Phase
  /-- `ORDER`. -/
  order : BitOrder
  /-- `MCLK_HZ`. -/
  mclkHz : Rat
  /-- `T_WORD`, in seconds. -/
  tWord : Rat
  /-- `T_SETTLE`, in seconds. -/
  tSettle : Rat
  /-- `CR_LAYOUT`. -/
  layout : CrLayout
  /-- `FREQ_TAG[0]`. -/
  freqTag0 : Tag
  /-- `FREQ_TAG[1]`. -/
  freqTag1 : Tag
  /-- `MODE_PATTERN`. -/
  patterns : ModePatterns
  /-- `MODE_MASK`. -/
  modeMask : Word
  /-- `OVERFLOW_POLICY`. -/
  overflowPolicy : OverflowPolicy
  /-- `TUNING_ROUND`. -/
  rounding : Rounding
deriving DecidableEq, Repr

/-- FREE VALUE (R6, I13; assumption 4): a `TUNING_ROUND` other than the default. Nothing constrains it. -/
opaque Config.customRound : Nat → Rat → Nat

/-- FREE VALUE (R14, I12; assumption 9): the level that the reference observer samples from a line at `X`. -/
opaque Config.freeBit : Nat → Bool

/-- FREE VALUE (I7, I9, I20, N5, N23, N26; assumption 8): the device's control register where the spec leaves it open. -/
opaque Config.freeCtrl : Nat → Word

/-- FREE VALUE (I7, I9, I20, N5, N23, N26; assumption 8): a frequency register of the device where the spec leaves it open. -/
opaque Config.freeFreq : Nat → Bank → TuningWord

/-- FREE VALUE (I7, I9, N5, N6, N23, N26; assumptions 8 and 16): a phase register of the device, by its number, where the spec
leaves it open. -/
opaque Config.freePhase : Nat → Nat → Nat

end Sys2Proof
end

