-- ==== Sys2Proof/Machine/Flags.lean ====
section
/-! DEFINITION. The fields of the Control Register and the read-modify-writes of it. The block has no arithmetic flags
(R45): its one-bit state is the ten fields of `CR` (R31), at the positions of `CR_LAYOUT`. -/

namespace Sys2Proof.Machine

/-- The mask of a one-bit field at a position (R31). -/
def fieldMask (pos : Nat) : Word := 1#16 <<< pos

/-- The field `B28` (R31): 28-bit write mode. -/
def maskB28 (cfg : Cfg) : Word := fieldMask cfg.layout.b28

/-- The field `HLB` (R31). -/
def maskHlb (cfg : Cfg) : Word := fieldMask cfg.layout.hlb

/-- The field `FSELECT` (R31): the active frequency bank. -/
def maskFselect (cfg : Cfg) : Word := fieldMask cfg.layout.fselect

/-- The field `PSELECT` (R31). -/
def maskPselect (cfg : Cfg) : Word := fieldMask cfg.layout.pselect

/-- The field `RESET` (R31). -/
def maskReset (cfg : Cfg) : Word := fieldMask cfg.layout.reset

/-- The field `SLEEP1` (R31). -/
def maskSleep1 (cfg : Cfg) : Word := fieldMask cfg.layout.sleep1

/-- The field `SLEEP12` (R31). -/
def maskSleep12 (cfg : Cfg) : Word := fieldMask cfg.layout.sleep12

/-- The field `OPBITEN` (R31). -/
def maskOpbiten (cfg : Cfg) : Word := fieldMask cfg.layout.opbiten

/-- The field `DIV2` (R31). -/
def maskDiv2 (cfg : Cfg) : Word := fieldMask cfg.layout.div2

/-- The field `MODE` (R31). -/
def maskMode (cfg : Cfg) : Word := fieldMask cfg.layout.mode

/-- The five fields that `MODE_MASK` must not contain (R35). -/
def nonModeFields (cfg : Cfg) : Word :=
  maskB28 cfg ||| maskHlb cfg ||| maskFselect cfg ||| maskPselect cfg ||| maskReset cfg

/-- All ten fields. -/
def allFields (cfg : Cfg) : Word :=
  nonModeFields cfg ||| maskSleep1 cfg ||| maskSleep12 cfg ||| maskOpbiten cfg ||| maskDiv2 cfg ||| maskMode cfg

/-- The reserved bits: those assigned to no field (R32). -/
def reservedMask (cfg : Cfg) : Word := ~~~ allFields cfg

/-- `r | mask`: set the bits of a field. -/
def setBits (r mask : Word) : Word := r ||| mask

/-- `r & ~mask`, the NOT at 16 bits (R10): clear the bits of a field. -/
def clearBits (r mask : Word) : Word := r &&& ~~~ mask

/-- Whether a register value has any bit of a mask set. -/
def hasBits (r mask : Word) : Bool := r &&& mask != 0#16

/-- `(R & ~MODE_MASK) | pattern` (R162, R163). -/
def withMode (cfg : Cfg) (r pattern : Word) : Word := setBits (clearBits r cfg.modeMask) pattern

/-- Set or clear `FSELECT` for a bank (R84, R165). -/
def withActiveBank (cfg : Cfg) (r : Word) : Bank → Word
  | .bank0 => clearBits r (maskFselect cfg)
  | .bank1 => setBits r (maskFselect cfg)

end Sys2Proof.Machine
end

