-- ==== Sys2Proof/Machine/Params.lean ====
section
/-! DEFINITION. The default configuration (R6, R87, R89), the constraints a configuration must meet (R242), and the
pin space (R60, R61). -/

namespace Sys2Proof.Machine

/-- The default `CR_LAYOUT` (R31). -/
def defaultLayout : CrLayout :=
  { b28 := 13, hlb := 12, fselect := 11, pselect := 10, reset := 8, sleep1 := 7, sleep12 := 6, opbiten := 5,
    div2 := 3, mode := 1 }

/-- The default `MODE_PATTERN` (R87). -/
def defaultPatterns : ModePatterns :=
  { sine := 0x0000#16, triangle := 0x0002#16, square1 := 0x0028#16, square2 := 0x0020#16, off := 0x00C0#16 }

/-- The default configuration (R6). The pin identifiers have no value in the spec: DESIGN CHOICE 0, 1, 2, unsafe only
for a claim about pin numbers (assumption 2). -/
def defaultCfg : Cfg :=
  { clkPin := 0, dataPin := 1, csPin := 2, cpol := true, cpha := .first, order := .msbFirst,
    mclkHz := 25000000, tWord := mkRat 1 100000, tSettle := mkRat 1 100,
    layout := defaultLayout, freqTag0 := 0b01#2, freqTag1 := 0b10#2, patterns := defaultPatterns,
    modeMask := 0x00EA#16, overflowPolicy := .reject, rounding := .nearestTiesEven }

/-- The ten positions of a layout. -/
def layoutPositions (l : CrLayout) : List Nat :=
  [l.b28, l.hlb, l.fselect, l.pselect, l.reset, l.sleep1, l.sleep12, l.opbiten, l.div2, l.mode]

/-- R32: ten distinct positions, each in 0..13. -/
def layoutValid (l : CrLayout) : Bool :=
  (layoutPositions l).all (fun p => decide (p < 14)) && decide (layoutPositions l).Nodup

/-- The five patterns, by mode code (R85). -/
def patternList (p : ModePatterns) : List Word := [p.sine, p.triangle, p.square1, p.square2, p.off]

/-- R35: distinct patterns, each within `MODE_MASK`, and a mask with no other field and no reserved bit. -/
def modesValid (cfg : Cfg) : Bool :=
  decide (patternList cfg.patterns).Nodup
    && (patternList cfg.patterns).all (fun p => p &&& ~~~ cfg.modeMask == 0#16)
    && cfg.modeMask &&& nonModeFields cfg == 0#16
    && cfg.modeMask &&& reservedMask cfg == 0#16

/-- R89: the two tags are distinct and neither is `0b00`. -/
def tagsValid (cfg : Cfg) : Bool :=
  cfg.freqTag0 != cfg.freqTag1 && cfg.freqTag0 != 0b00#2 && cfg.freqTag1 != 0b00#2

/-- R242: the three pins are pairwise distinct. -/
def pinsDistinct (cfg : Cfg) : Bool :=
  cfg.clkPin != cfg.dataPin && cfg.clkPin != cfg.csPin && cfg.dataPin != cfg.csPin

/-- `Valid(Cfg)` (R242). The domains of `CPOL`, `CPHA` and `ORDER` are their types. -/
def cfgValid (cfg : Cfg) : Bool :=
  pinsDistinct cfg && decide (0 < cfg.mclkHz) && decide (0 ≤ cfg.tWord) && decide (0 ≤ cfg.tSettle)
    && layoutValid cfg.layout && modesValid cfg && tagsValid cfg

/-- The driver's pin identifier of a line (R60, R61). -/
def pinOf (cfg : Cfg) : Line → Nat
  | .clk => cfg.clkPin
  | .data => cfg.dataPin
  | .cs => cfg.csPin

/-- The pins a configuration uses. -/
def pinsUsed (cfg : Cfg) : List Nat := [cfg.clkPin, cfg.dataPin, cfg.csPin]

/-- Whether two configurations name a common pin (R75). -/
def sharesPin (a b : Cfg) : Bool := (pinsUsed a).any (fun p => (pinsUsed b).contains p)

/-- `FREQ_TAG[c]` (R6). -/
def freqTag (cfg : Cfg) : Bank → Tag
  | .bank0 => cfg.freqTag0
  | .bank1 => cfg.freqTag1

end Sys2Proof.Machine
end

