-- ==== Sys2Proof/Machine/Operands.lean ====
section
/-! DEFINITION. Every operand form: the validation of each operand (R83, R201, R203), the mode patterns (R85), the
tuning-word arithmetic (R170 to R173) and the assembly of device words (R86, R88, R92). -/

namespace Sys2Proof.Machine

/-- The status code of R201. -/
def statusCode : Status → Nat
  | .ok => 0
  | .invalidArgument _ => 1
  | .hardwareIoFailure _ => 2

/-- The cause code of R201. -/
def causeCode : Cause → Nat
  | .channel _ => 1
  | .unsupportedMode _ => 2
  | .wordRange _ => 3
  | .freqRange _ => 4
  | .freqOverflow _ => 5

/-- The `word` operand: `0..65535`, else WORD_RANGE (R83, R130). -/
def checkWord (word : Int) : Except Cause Word :=
  if 0 ≤ word ∧ word ≤ 65535 then .ok (BitVec.ofInt 16 word) else .error (.wordRange word)

/-- The `channel` operand: 0 names bank 0 and 1 names bank 1, else CHANNEL (R83, R84). -/
def checkChannel (channel : Int) : Except Cause Bank :=
  if channel = 0 then .ok .bank0 else if channel = 1 then .ok .bank1 else .error (.channel channel)

/-- The pattern of a mode code; codes 5, 6 and 7 name none (R85). -/
def modePattern (cfg : Cfg) (mode : BitVec 3) : Option Word :=
  (patternList cfg.patterns)[mode.toNat]?

/-- The `mode` operand: code 0..4, else UNSUPPORTED_MODE (R83, R162). -/
def checkMode (cfg : Cfg) (mode : BitVec 3) : Except Cause Word :=
  match modePattern cfg mode with
  | some p => .ok p
  | none => .error (.unsupportedMode mode)

/-- The default `TUNING_ROUND` of the rational `n / d` (R173): to nearest, an exact tie to the even neighbour. -/
def roundNearestTiesEven (n d : Nat) : Nat :=
  if 2 * (n % d) < d then n / d
  else if d < 2 * (n % d) then n / d + 1
  else if n / d % 2 = 0 then n / d else n / d + 1

/-- The numerator of the exact quotient `x = freq · 2^28 / MCLK_HZ` (R170), not in lowest terms; `freq ≥ 0`. -/
def quotientNum (cfg : Cfg) (freq : Rat) : Nat := freq.num.toNat * 2 ^ 28 * cfg.mclkHz.den

/-- The denominator of the exact quotient (R170); `MCLK_HZ > 0` (R242). -/
def quotientDen (cfg : Cfg) (freq : Rat) : Nat := freq.den * cfg.mclkHz.num.toNat

/-- The exact quotient as one rational number (R170). -/
def tuningQuotient (cfg : Cfg) (freq : Rat) : Rat := freq * 2 ^ 28 / cfg.mclkHz

/-- The candidate word `t = TUNING_ROUND(x)` (R6, R170). -/
def tuningCandidate (cfg : Cfg) (freq : Rat) : Nat :=
  match cfg.rounding with
  | .nearestTiesEven => roundNearestTiesEven (quotientNum cfg freq) (quotientDen cfg freq)
  | .custom id => Config.customRound id (tuningQuotient cfg freq)

/-- The largest tuning word (R170). -/
def maxTuning : Nat := 0x0FFFFFFF

/-- The tuning word `T`, or FREQ_OVERFLOW under REJECT; no policy wraps (R170). -/
def tuningWord (cfg : Cfg) (freq : Rat) : Except Cause TuningWord :=
  if tuningCandidate cfg freq ≤ maxTuning then .ok (BitVec.ofNat 28 (tuningCandidate cfg freq))
  else match cfg.overflowPolicy with
    | .reject => .error (.freqOverflow (tuningCandidate cfg freq))
    | .saturate => .ok (BitVec.ofNat 28 maxTuning)

/-- The `freq` operand: not negative, else FREQ_RANGE; then its tuning word (R83, R175). -/
def checkFreq (cfg : Cfg) (freq : Rat) : Except Cause TuningWord :=
  if 0 ≤ freq then tuningWord cfg freq else .error (.freqRange freq)

/-- The operands of SET_FREQUENCY, checked in the order CHANNEL, FREQ_RANGE, FREQ_OVERFLOW (R175, R203). -/
def checkFrequency (cfg : Cfg) (channel : Int) (freq : Rat) : Except Cause (Bank × TuningWord) :=
  match checkChannel channel with
  | .error c => .error c
  | .ok bank =>
    match checkFreq cfg freq with
    | .error c => .error c
    | .ok t => .ok (bank, t)

/-- `T[13:0]` (R171). -/
def lsbHalf (t : TuningWord) : Half := t.extractLsb' 0 14

/-- `T[27:14]` (R171). -/
def msbHalf (t : TuningWord) : Half := t.extractLsb' 14 14

/-- `(msb_half << 14) | lsb_half` (R64, R172). -/
def joinHalves (msb lsb : Half) : TuningWord := msb ++ lsb

/-- A frequency word: the tag above the half (R88). -/
def freqWord (cfg : Cfg) (bank : Bank) (half : Half) : Word := freqTag cfg bank ++ half

/-- A control word from its bits 13:0 (R86). -/
def ctrlWord (fields : BitVec 14) : Word := 0b00#2 ++ fields

end Sys2Proof.Machine
end

