-- ==== Sys2Proof/WellFormed.lean ====
section
/-! DEFINITION. When an instruction is well-formed: a command whose operands are in the domains of R83 (exactly the
commands that are not turned away with INVALID_ARGUMENT), a device word of the formats of R86 and R88. The reserved
command codes are never well-formed (R94). -/

namespace Sys2Proof

/-- The domain of the channel operand (R84). -/
def channelInRange (channel : Int) : Bool := channel == 0 || channel == 1

/-- The domain of the frequency operand under a configuration (R83): not negative, and a tuning word that fits 28 bits
or is saturated. -/
def freqInRange (cfg : Cfg) (freq : Rat) : Bool :=
  decide (0 ≤ freq)
    && (decide (Machine.tuningCandidate cfg freq < 2 ^ 28) || cfg.overflowPolicy == .saturate)

/-- Well-formedness of an instruction under a configuration (R83, R86, R88, R94). -/
def Instr.wellFormed (cfg : Cfg) : Instr → Bool
  | .transfer word => decide (0 ≤ word) && decide (word < 2 ^ 16)
  | .beginCmd => true
  | .resetCmd => true
  | .setMode mode => decide (mode.toNat < 5)
  | .setFrequency channel freq => channelInRange channel && freqInRange cfg freq
  | .setActiveFrequency channel => channelInRange channel
  | .reserved6 => false
  | .reserved7 => false
  | .dwCtrl fields => Machine.ctrlWord fields &&& Machine.reservedMask cfg == 0#16
  | .dwFreq0Lsb _ => true
  | .dwFreq0Msb _ => true
  | .dwFreq1Lsb _ => true
  | .dwFreq1Msb _ => true

end Sys2Proof
end

