-- ==== Sys2Proof/Decode.lean ====
section
/-! DEFINITION. Decoding of both encodings of the spec, and the encoder: the command record of the command port (R80,
R81) and the 16-bit device word (R86, R88, R90). -/

namespace Sys2Proof

/-- What an instruction is fetched as: a command record from the command port, or a word the device received. -/
inductive Packet where
  | command (c : Command)
  | word (w : Word)
deriving DecidableEq, Repr

/-- Why a packet is no instruction. -/
inductive DecodeError where
  /-- A word whose tag is neither `0b00` nor a frequency tag: no command of the controller emits it (R90, R91). -/
  | tagOfNoFormat (tag : Tag)
deriving DecidableEq, Repr

/-- The command of a record (R81); operands the command does not take are ignored (R80). Every op code has a row. -/
def decodeCommand (c : Command) : Instr :=
  match c.op.toNat with
  | 0 => .transfer c.word
  | 1 => .beginCmd
  | 2 => .resetCmd
  | 3 => .setMode c.mode
  | 4 => .setFrequency c.channel c.freq
  | 5 => .setActiveFrequency c.channel
  | 6 => .reserved6
  | _ => .reserved7

/-- `w[15:14]` (R62). -/
def wordTag (w : Word) : Tag := w.extractLsb' 14 2

/-- `w[13:0]` (R86, R88). -/
def wordPayload (w : Word) : BitVec 14 := w.extractLsb' 0 14

/-- The frequency word of a bank at its place in the sequence (R90): the second half when the bank's first half is
pending, else the first half. -/
def frequencyInstr (pending : Option Bank) (bank : Bank) (half : Half) : Instr :=
  match bank with
  | .bank0 => if pending = some .bank0 then .dwFreq0Msb half else .dwFreq0Lsb half
  | .bank1 => if pending = some .bank1 then .dwFreq1Msb half else .dwFreq1Lsb half

/-- A device word (R90), given the bank whose first half is pending, since the word itself carries no LSB/MSB marker. -/
def decodeWord (cfg : Cfg) (pending : Option Bank) (w : Word) : Except DecodeError Instr :=
  if wordTag w = 0b00#2 then .ok (.dwCtrl (wordPayload w))
  else if wordTag w = cfg.freqTag0 then .ok (frequencyInstr pending .bank0 (wordPayload w))
  else if wordTag w = cfg.freqTag1 then .ok (frequencyInstr pending .bank1 (wordPayload w))
  else .error (.tagOfNoFormat (wordTag w))

/-- Decoding of a packet. -/
def decode (cfg : Cfg) (pending : Option Bank) : Packet → Except DecodeError Instr
  | .command c => .ok (decodeCommand c)
  | .word w => decodeWord cfg pending w

/-- A record with every operand zero, for an op code. -/
def bareCommand (op : BitVec 3) : Command := { op := op, word := 0, channel := 0, mode := 0#3, freq := 0 }

/-- The encoding of an instruction (R81, R82, R86, R88): a record whose unused operands are zero, or a device word. -/
def encode (cfg : Cfg) : Instr → Packet
  | .transfer word => .command { bareCommand 0b000#3 with word := word }
  | .beginCmd => .command (bareCommand 0b001#3)
  | .resetCmd => .command (bareCommand 0b010#3)
  | .setMode mode => .command { bareCommand 0b011#3 with mode := mode }
  | .setFrequency channel freq => .command { bareCommand 0b100#3 with channel := channel, freq := freq }
  | .setActiveFrequency channel => .command { bareCommand 0b101#3 with channel := channel }
  | .reserved6 => .command (bareCommand 0b110#3)
  | .reserved7 => .command (bareCommand 0b111#3)
  | .dwCtrl fields => .word (Machine.ctrlWord fields)
  | .dwFreq0Lsb half => .word (Machine.freqWord cfg .bank0 half)
  | .dwFreq0Msb half => .word (Machine.freqWord cfg .bank0 half)
  | .dwFreq1Lsb half => .word (Machine.freqWord cfg .bank1 half)
  | .dwFreq1Msb half => .word (Machine.freqWord cfg .bank1 half)

/-- Whether an instruction can stand at a place in the device's sequence (R90): an MSB word is the second half of its
bank, an LSB word is not; the other instructions can stand anywhere. -/
def fitsPlace (pending : Option Bank) : Instr → Bool
  | .dwFreq0Lsb _ => pending != some .bank0
  | .dwFreq0Msb _ => pending == some .bank0
  | .dwFreq1Lsb _ => pending != some .bank1
  | .dwFreq1Msb _ => pending == some .bank1
  | .transfer _ => true
  | .beginCmd => true
  | .resetCmd => true
  | .setMode _ => true
  | .setFrequency _ _ => true
  | .setActiveFrequency _ => true
  | .reserved6 => true
  | .reserved7 => true
  | .dwCtrl _ => true

/-- The record that presents an instruction on the command port; a device word is none. -/
def commandOf (cfg : Cfg) (i : Instr) : Option Command :=
  match encode cfg i with
  | .command c => some c
  | .word _ => none

/-- The packet of an opcode-table row's bits: rows of at most 8 bits are command records (the op code in bits 2:0, every
operand zero), rows of 16 bits are device words. -/
def tablePacket (nbits w : Nat) : Option Packet :=
  if nbits ≤ 8 then some (.command (bareCommand (BitVec.ofNat 3 w)))
  else if nbits ≤ 16 then some (.word (BitVec.ofNat 16 w))
  else none

/-- The instruction the decoder reads from an opcode-table row's bits, under the default configuration and with no
half pending. -/
def decodeTableWord (nbits w : Nat) : Option Instr :=
  match tablePacket nbits w with
  | none => none
  | some p =>
    match decode Machine.defaultCfg none p with
    | .ok i => some i
    | .error _ => none

end Sys2Proof
end

