-- ==== Sys2Proof/Machine/State.lean ====
section
/-! DEFINITION. The state of one instance as plain data (R21), with its environment: the command port, the driver's
answers, the observation, the reference observer and the device behind it. -/

namespace Sys2Proof.Machine

/-- The level of a line as the block knows it (R14): 0, 1, or `X`, not known to the block. -/
inductive Level where
  | known (b : Bool)
  | x
deriving DecidableEq, Repr

/-- The two kinds of delay (R12, R151). -/
inductive DelayKind where
  | word
  | settle
deriving DecidableEq, Repr

/-- The micro-actions (R12). -/
inductive Act where
  /-- `GpioDir(p)`: configure a line as an output. -/
  | gpioDir (line : Line)
  /-- `GpioWrite(p, l)`: write a level to a line. -/
  | gpioWrite (line : Line) (level : Bool)
  /-- `Delay(kind)`: wait at least `T_WORD` or `T_SETTLE`. -/
  | delay (kind : DelayKind)
  /-- `CR <- v`. -/
  | setCr (value : Word)
  /-- `FTW[c] <- v`. -/
  | setFtw (bank : Bank) (value : TuningWord)
  /-- `begun <- true`. -/
  | setBegun
deriving DecidableEq, Repr

/-- One entry of the observation of a run (R15): an event, or the status returned for a command. -/
inductive Event where
  | dir (line : Line)
  | write (line : Line) (level : Bool)
  | delay (kind : DelayKind)
  | fail (line : Line)
  | status (status : Status)
deriving DecidableEq, Repr

/-- `pin[CLK]`, `pin[DATA]`, `pin[CS]` (R41). -/
structure Pins where
  clk : Level
  data : Level
  cs : Level
deriving DecidableEq, Repr

/-- `dir[CLK]`, `dir[DATA]`, `dir[CS]` (R42). -/
structure Dirs where
  clk : Bool
  data : Bool
  cs : Bool
deriving DecidableEq, Repr

/-- The driver's answer to one GPIO call (R205). -/
inductive DriverAnswer where
  | completed
  | failed
deriving DecidableEq, Repr

/-- The state `(cs, clk, data, n, acc)` of the reference observer (R128), and whether a failure has stopped it. -/
structure Observer where
  cs : Bool
  clk : Bool
  data : Level
  n : Nat
  acc : Word
  stopped : Bool
deriving DecidableEq, Repr

/-- What the reference observer emits (R128). -/
inductive Emission where
  | word (w : Word)
  | malformed (n : Nat)
  | aborted
deriving DecidableEq, Repr

/-- Where the device stands in a frequency write (R46, R90). -/
inductive Latch where
  /-- No register write has declared write mode since the last frequency write: the spec states no effect of a half. -/
  | closed
  /-- A register write has declared write mode: the LSB half comes next. -/
  | declared
  /-- The LSB half of a bank has been received: its MSB half comes next. -/
  | low (bank : Bank) (half : Half)
  /-- A first half of a bank has been received where the spec states no effect of it; if the next half is of that bank, it is by its
  place in the sequence the second (R90). DESIGN CHOICE: only one bank is pending at a time, so that a half of the other bank in between
  takes this bank's place, and a later half of this bank is a first one again (assumption 22). -/
  | stray (bank : Bank)
deriving DecidableEq, Repr

/-- The waveform device's own registers (R46), reached only through the words the reference observer emits, and the two
durations it requires (R258), which are parameters of the device and never change. -/
structure Device where
  /-- The device's own copy of the control register. -/
  ctrl : Word
  /-- The frequency register of bank 0. -/
  freq0 : TuningWord
  /-- The frequency register of bank 1. -/
  freq1 : TuningWord
  /-- The phase register that `PSELECT = 0` selects (R252). DESIGN CHOICE: the spec states no width, so it is any natural number
  (assumption 16). -/
  phase0 : Nat
  /-- The phase register that `PSELECT = 1` selects (assumption 16). -/
  phase1 : Nat
  latch : Latch
  /-- MODEL'S OWN: a `Delay(WORD)` has passed since the last frame the device received (R253; assumption 13). -/
  spaced : Bool
  /-- `t_dev_setup` (R258), in seconds. -/
  setupTime : Rat
  /-- `t_dev_settle` (R258), in seconds. -/
  settleTime : Rat
deriving DecidableEq, Repr

/-- The state of the machine. -/
structure State where
  /-- `Cfg` (R6, R22): the parameter of the step, carried along; no step changes it. -/
  cfg : Cfg
  /-- `CR` (R30). -/
  cr : Word
  /-- `FTW[0]` (R40); `none` is the spec's own value, never written. -/
  ftw0 : Option TuningWord
  /-- `FTW[1]` (R40). -/
  ftw1 : Option TuningWord
  /-- `pin` (R41). -/
  pins : Pins
  /-- `dir` (R42). -/
  dirs : Dirs
  /-- `begun` (R43). -/
  begun : Bool
  /-- `acts` (R44): the micro-actions of the command in progress. -/
  acts : List Act
  /-- `pc` (R44): the index of the next micro-action. -/
  pc : Nat
  /-- `fault` (R45): NONE, or IO_FAILURE of a line. -/
  fault : Option Line
  /-- The command port (R61, R80): the records the host presents, oldest first. -/
  port : List Command
  /-- The driver's answers to come (R205), oldest first; past the end of the list every call completes. -/
  answers : List DriverAnswer
  /-- The observation of the run (R15), oldest first. -/
  trace : List Event
  /-- The reference observer (R128). -/
  obs : Observer
  /-- What the observer has emitted and the device has not yet taken, oldest first. -/
  rx : List Emission
  /-- The waveform device (R46). -/
  dev : Device
  /-- MODEL'S OWN: a frequency or mode command was accepted while `begun` was false, so the premise of R250 is broken. -/
  early : Bool
  /-- MODEL'S OWN: how many free values have been used. -/
  free : Nat
deriving DecidableEq, Repr

/-- Why the machine stops with a fault. -/
inductive Fault where
  /-- Raised by `step` and by every command's meaning on a FAILED instance (R207): it accepts no command and has no step. Safe. -/
  | instanceFailed (line : Line)
  /-- Raised by `readFtw` on a bank that no SET_FREQUENCY has loaded (R40, I11); no step reads `FTW`. Safe. -/
  | ftwNotLoaded (bank : Bank)
deriving DecidableEq, Repr

/-- Why the machine gives no meaning. -/
inductive Refusal where
  /-- Raised by an arm of `exec` for an instruction without a meaning; no arm raises it now. Safe. -/
  | notModelled (mnemonic : String)
  /-- Raised by the meanings of the reserved command codes `0b110` and `0b111` (R94). Safe. -/
  | reservedCommandCode (code : BitVec 3)
  /-- Raised by construction with a configuration that is not valid (R242). Safe. -/
  | invalidConfiguration
  /-- Raised by construction with a configuration that shares a pin with another instance (R75). Safe. -/
  | pinsShared
deriving DecidableEq, Repr

/-- The reference observer before any event (R128). -/
def Observer.start (cfg : Cfg) : Observer :=
  { cs := true, clk := cfg.cpol, data := .x, n := 0, acc := 0#16, stopped := false }

/-- The device at power-up. The spec gives its registers no value (R243, N26): DESIGN CHOICE zero, UNSAFE (assumption 7). It leaves
`t_dev_setup` and `t_dev_settle` open (R258, D13): DESIGN CHOICE the source's approximate figures of `T_WORD` and `T_SETTLE`,
UNSAFE (assumption 7). No statement rests on any of these values. -/
def Device.powerUp : Device :=
  { ctrl := 0#16, freq0 := 0#28, freq1 := 0#28, phase0 := 0, phase1 := 0, latch := .closed, spaced := true,
    setupTime := mkRat 1 100000, settleTime := mkRat 1 100 }

/-- The observation of a construction that did not fail (R241). -/
def constructionTrace (cfg : Cfg) : List Event :=
  [.dir .clk, .dir .data, .dir .cs, .write .cs true, .write .clk cfg.cpol]

/-- The state right after a construction that did not fail (R241), with the driver's answers, the device and the count of free
values given. -/
def State.constructed (cfg : Cfg) (answers : List DriverAnswer) (dev : Device) (free : Nat) : State :=
  { cfg := cfg, cr := 0x0000#16, ftw0 := none, ftw1 := none,
    pins := { clk := .known cfg.cpol, data := .x, cs := .known true },
    dirs := { clk := true, data := true, cs := true },
    begun := false, acts := [], pc := 0, fault := none, port := [], answers := answers,
    trace := constructionTrace cfg, obs := Observer.start cfg, rx := [], dev := dev, early := false, free := free }

/-- The machine right after reset: constructed with the default configuration (R241), nothing on the command port, and
a driver that completes every call (assumption 6). -/
def State.reset : State := State.constructed defaultCfg [] Device.powerUp 0

end Sys2Proof.Machine
end

