-- ==== Sys2Proof/Machine/Observer.lean ====
section
/-! DEFINITION. The reference observer (R128): what a device with the same polarity, phase and bit order receives. -/

namespace Sys2Proof.Machine

/-- Whether a clock edge that leaves the level `clk` is a sampling edge (R128). -/
def edgeIsSampling (cfg : Cfg) (clk : Bool) : Bool :=
  match cfg.cpha with
  | .first => clk == cfg.cpol
  | .second => clk == !cfg.cpol

/-- The direction of a clock edge. -/
inductive Edge where
  | rising
  | falling
deriving DecidableEq, Repr

/-- The sampling-edge table of R127. -/
def samplingEdge (cpol : Bool) (cpha : Phase) : Edge :=
  match cpol, cpha with
  | false, .first => .rising
  | false, .second => .falling
  | true, .first => .falling
  | true, .second => .rising

/-- Whether an event makes the observer take a sample. -/
def takesSample (cfg : Cfg) (o : Observer) : Event → Bool
  | .write .clk l => !o.stopped && l != o.clk && !o.cs && edgeIsSampling cfg o.clk
  | _ => false

/-- Whether an event makes the observer sample a line at `X`. -/
def samplesUnknown (cfg : Cfg) (o : Observer) (e : Event) : Bool := takesSample cfg o e && o.data == .x

/-- The bit a level reads as; a read of `X` is any value, here the argument `fresh` (R14, I12). -/
def levelBit (fresh : Bool) : Level → Bool
  | .known b => b
  | .x => fresh

/-- The accumulator after one sample, in `ORDER` (R128). -/
def accumulate (order : BitOrder) (acc : Word) (n : Nat) (bit : Bool) : Word :=
  match order with
  | .msbFirst => acc <<< 1 ||| BitVec.setWidth 16 (BitVec.ofBool bit)
  | .lsbFirst => acc ||| BitVec.setWidth 16 (BitVec.ofBool bit) <<< n

/-- A select-line write seen by the observer (R128): a fall starts a frame, a rise ends it. -/
def observeSelect (o : Observer) (l : Bool) : Observer × Option Emission :=
  if o.cs && !l then ({ o with cs := false, n := 0, acc := 0#16 }, none)
  else if !o.cs && l then
    ({ o with cs := true }, some (if o.n = 16 then .word o.acc else .malformed o.n))
  else (o, none)

/-- A clock-line write seen by the observer (R128): an edge, if the level changes, and a sample, if it is a sampling
edge of a selected device. -/
def observeClock (cfg : Cfg) (fresh : Bool) (o : Observer) (l : Bool) : Observer :=
  if l == o.clk then o
  else if takesSample cfg o (.write .clk l) then
    { o with clk := l, acc := accumulate cfg.order o.acc o.n (levelBit fresh o.data), n := o.n + 1 }
  else { o with clk := l }

/-- One event of the trace, seen by the observer (R128). -/
def observe (cfg : Cfg) (fresh : Bool) (o : Observer) (e : Event) : Observer × Option Emission :=
  if o.stopped then (o, none)
  else match e with
    | .write .cs l => observeSelect o l
    | .write .data l => ({ o with data := .known l }, none)
    | .write .clk l => (observeClock cfg fresh o l, none)
    | .fail _ => ({ o with stopped := true }, some .aborted)
    | .dir _ => (o, none)
    | .delay _ => (o, none)
    | .status _ => (o, none)

/-- What the observer emits over a list of events, with one value for every read of `X`. -/
def observeAll (cfg : Cfg) (fresh : Bool) : Observer → List Event → List Emission
  | _, [] => []
  | o, e :: es =>
    (observe cfg fresh o e).2.toList ++ observeAll cfg fresh (observe cfg fresh o e).1 es

end Sys2Proof.Machine
end

