-- ==== Sys2Proof/Machine/Ops.lean ====
section
/-! DEFINITION. The named operations on the state: the observation, the lines, the shadow registers, the two ways a
command ends early (R200, R202, R206), micro-actions and the sequencer (R12, R13, R44), the acceptance of a command
(R13, R44, R152), and construction (R240). The block has no memory (R61). -/

namespace Sys2Proof.Machine

/-- Record one event: in the observation (R15) and at the reference observer (R128). A sample of a line at `X` uses a
free value. -/
def emit (e : Event) (s : State) : State :=
  { s with
    trace := s.trace ++ [e]
    obs := (observe s.cfg (Config.freeBit s.free) s.obs e).1
    rx := s.rx ++ (observe s.cfg (Config.freeBit s.free) s.obs e).2.toList
    free := if samplesUnknown s.cfg s.obs e then s.free + 1 else s.free }

/-- `pin[p]` (R41). -/
def pinLevel (p : Line) (pins : Pins) : Level :=
  match p with
  | .clk => pins.clk
  | .data => pins.data
  | .cs => pins.cs

/-- `pin[p] <- l` (R41). -/
def setPin (p : Line) (l : Level) (pins : Pins) : Pins :=
  match p with
  | .clk => { pins with clk := l }
  | .data => { pins with data := l }
  | .cs => { pins with cs := l }

/-- `dir[p]` (R42). -/
def dirSet (p : Line) (dirs : Dirs) : Bool :=
  match p with
  | .clk => dirs.clk
  | .data => dirs.data
  | .cs => dirs.cs

/-- `dir[p] <- true` (R42). -/
def setDir (p : Line) (dirs : Dirs) : Dirs :=
  match p with
  | .clk => { dirs with clk := true }
  | .data => { dirs with data := true }
  | .cs => { dirs with cs := true }

/-- Every line at `X` (R206). -/
def unknownPins : Pins := { clk := .x, data := .x, cs := .x }

/-- `FTW[c]`, which may be `none` (R40). -/
def ftwOf (bank : Bank) (s : State) : Option TuningWord :=
  match bank with
  | .bank0 => s.ftw0
  | .bank1 => s.ftw1

/-- Reading the value of `FTW[c]`: while it is `none` the model produces no value (R40, I11). No step reads it. -/
def readFtw (bank : Bank) (s : State) : Except Fault TuningWord :=
  match ftwOf bank s with
  | some t => .ok t
  | none => .error (.ftwNotLoaded bank)

/-- `FTW[c] <- v` (R40). -/
def setFtw (bank : Bank) (t : TuningWord) (s : State) : State :=
  match bank with
  | .bank0 => { s with ftw0 := some t }
  | .bank1 => { s with ftw1 := some t }

/-- The device `d` where the spec leaves all its registers open (I7, I9, I20, N23): they take free values, and no register write has
declared write mode. A frame has ended, and no delay has passed since (R253). The durations it requires stay. -/
def anyDevice (n : Nat) (d : Device) : Device :=
  { d with
    ctrl := Config.freeCtrl n
    freq0 := Config.freeFreq n .bank0
    freq1 := Config.freeFreq n .bank1
    phase0 := Config.freePhase n 0
    phase1 := Config.freePhase n 1
    latch := .closed
    spaced := false }

/-- The device's registers become any value. -/
def loseDevice (s : State) : State := { s with dev := anyDevice s.free s.dev, free := s.free + 1 }

/-- `raise InvalidArgument(cause)` (R202): the status goes to the host and nothing else happens. -/
def raiseInvalid (c : Cause) (s : State) : State := emit (.status (.invalidArgument c)) s

/-- `raise HardwareIoFailure(p)` (R206): the event `Fail(p)`, every line at `X`, the sticky fault, the rest of the command
dropped, the status returned. What internal micro-actions wrote stands. The device is not touched here (R243). -/
def raiseIoFailure (p : Line) (s : State) : State :=
  emit (.status (.hardwareIoFailure p))
    { emit (.fail p) s with pins := unknownPins, fault := some p, acts := [], pc := 0 }

/-- The line a micro-action asks the driver about (R205); the others cannot fail (R151, R152). -/
def actLine : Act → Option Line
  | .gpioDir p => some p
  | .gpioWrite p _ => some p
  | .delay _ => none
  | .setCr _ => none
  | .setFtw _ _ => none
  | .setBegun => none

/-- A delay as the device sees it: after a `Delay(WORD)` the next frame is separated from the one before it (R253). -/
def spaceDevice (k : DelayKind) (s : State) : State :=
  match k with
  | .word => { s with dev := { s.dev with spaced := true } }
  | .settle => s

/-- The effect of a micro-action that completes (R12, R121, R151). -/
def applyAct (a : Act) (s : State) : State :=
  match a with
  | .gpioDir p => emit (.dir p) { s with dirs := setDir p s.dirs }
  | .gpioWrite p l => emit (.write p l) { s with pins := setPin p (.known l) s.pins }
  | .delay k => emit (.delay k) (spaceDevice k s)
  | .setCr v => { s with cr := v }
  | .setFtw c t => setFtw c t s
  | .setBegun => { s with begun := true }

/-- The driver's next answer (R205). -/
def nextAnswer (s : State) : DriverAnswer := s.answers.headD .completed

/-- The state with the driver's next answer used up. -/
def takeAnswer (s : State) : State := { s with answers := s.answers.tail }

/-- Perform one micro-action: an internal one or a delay always, a GPIO call as the driver answers (R205, R206). -/
def performAct (a : Act) (s : State) : State :=
  match actLine a with
  | none => applyAct a s
  | some p =>
    match nextAnswer s with
    | .completed => applyAct a (takeAnswer s)
    | .failed => raiseIoFailure p (takeAnswer s)

/-- The command in progress completes with OK (R44, R152). -/
def completeCommand (s : State) : State := emit (.status .ok) { s with acts := [], pc := 0 }

/-- `pc <- pc + 1`, and completion when `pc = length(acts)` (R44). -/
def advance (s : State) : State :=
  if s.pc + 1 < s.acts.length then { s with pc := s.pc + 1 } else completeCommand s

/-- One step of the sequencer (R13, R44): perform `acts[pc]` and, if it did not fail, advance. A command that fails leaves the device
in any state (R46, I7). -/
def sequencerStep (s : State) : State :=
  match s.acts[s.pc]? with
  | none => completeCommand s
  | some a =>
    match (performAct a s).fault with
    | some _ => loseDevice (performAct a s)
    | none => advance (performAct a s)

/-- Load the micro-actions of a command (R13, R44). A frequency or mode command that is accepted before BEGIN has completed
breaks the premise of R250 from here on. -/
def loadActs (frequencyOrMode : Bool) (acts : List Act) (s : State) : State :=
  { s with acts := acts, pc := 0, early := s.early || (frequencyOrMode && !s.begun) }

/-- Present a command to the block (R13, R44, R152): a FAILED instance takes none (R207); while a command is in progress
the host blocks with this one at the port (R8, R44); else validation either raises INVALID_ARGUMENT or gives the
micro-actions, which are loaded. -/
def acceptCommand (c : Command) (frequencyOrMode : Bool) (plan : Except Cause (List Act)) (s : State) :
    Host.Outcome State Fault Refusal :=
  match s.fault with
  | some p => .fault (.instanceFailed p)
  | none =>
    match s.acts with
    | _ :: _ => .next { s with port := c :: s.port }
    | [] =>
      match plan with
      | .error cause => .next (raiseInvalid cause s)
      | .ok acts => .next (loadActs frequencyOrMode acts s)

/-- Perform a list of micro-actions up to the first that fails (R13, R206). -/
def performActs : List Act → State → State
  | [], s => s
  | a :: as, s =>
    match (performAct a s).fault with
    | some _ => performAct a s
    | none => performActs as (performAct a s)

/-- The five micro-actions of construction, in order (R240). -/
def constructionActs (cfg : Cfg) : List Act :=
  [.gpioDir .clk, .gpioDir .data, .gpioDir .cs, .gpioWrite .cs true, .gpioWrite .clk cfg.cpol]

/-- The state construction sets before its first GPIO call (R240). DESIGN CHOICE: the premise of R250 is asked of each instance anew, so
`early` starts false also in front of a device that another instance has sent words to (assumption 10). -/
def blankState (cfg : Cfg) (answers : List DriverAnswer) (dev : Device) (free : Nat) : State :=
  { cfg := cfg, cr := 0x0000#16, ftw0 := none, ftw1 := none, pins := unknownPins,
    dirs := { clk := false, data := false, cs := false }, begun := false, acts := [], pc := 0, fault := none,
    port := [], answers := answers, trace := [], obs := Observer.start cfg, rx := [], dev := dev,
    early := false, free := free }

/-- Construction of an instance (R240) beside others (R75): refused when the configuration is not valid (R242) or shares a
pin with another instance's. The device is as it was (R243), and the count of free values goes on from the one given, so that a
later free value is a fresh one. -/
def construct (others : List Cfg) (cfg : Cfg) (answers : List DriverAnswer) (dev : Device) (free : Nat) :
    Host.Outcome State Fault Refusal :=
  if cfgValid cfg then
    if others.any (sharesPin cfg) then .refused .pinsShared
    else .next (performActs (constructionActs cfg) (blankState cfg answers dev free))
  else .refused .invalidConfiguration

/-- Recovery (R208): a new construction with the same configuration, in front of the same device. -/
def recover (others : List Cfg) (answers : List DriverAnswer) (s : State) : Host.Outcome State Fault Refusal :=
  construct others s.cfg answers s.dev s.free

end Sys2Proof.Machine
end

