-- ==== Sys2Proof/Machine/Channel.lean ====
section
/-! DEFINITION. The Bit-Clocked Channel: the frame of a word (R121 to R124) and the TRANSFER command (R130). -/

namespace Sys2Proof.Machine

/-- What one write of a bit step does (R93). -/
inductive BitWrite where
  /-- Drive the data line to the bit. -/
  | data
  /-- Drive the clock line to its active level. -/
  | clockActive
  /-- Drive the clock line back to its idle level. -/
  | clockIdle
deriving DecidableEq, Repr

/-- The two-case decision table of R93 and R124: the order of the three writes of a bit, by `CPHA` alone. -/
def bitTable : Phase → List BitWrite
  | .first => [.data, .clockActive, .clockIdle]
  | .second => [.clockActive, .data, .clockIdle]

/-- One write of a bit step as a micro-action; `CPOL` only chooses the clock levels (R124). -/
def bitWriteAct (cfg : Cfg) (b : Bool) : BitWrite → Act
  | .data => .gpioWrite .data b
  | .clockActive => .gpioWrite .clk (!cfg.cpol)
  | .clockIdle => .gpioWrite .clk cfg.cpol

/-- The bit step that sends `b` (R122, R123). -/
def bitStep (cfg : Cfg) (b : Bool) : List Act := (bitTable cfg.cpha).map (bitWriteAct cfg b)

/-- The bit position sent `k`-th (R63). -/
def bitIndex (order : BitOrder) (k : Nat) : Nat :=
  match order with
  | .msbFirst => 15 - k
  | .lsbFirst => k

/-- `Frame(w)` (R121): select, the 16 bits in `ORDER`, deselect. -/
def frame (cfg : Cfg) (w : Word) : List Act :=
  .gpioWrite .cs false ::
    ((List.range 16).flatMap (fun k => bitStep cfg (w.getLsbD (bitIndex cfg.order k))) ++ [.gpioWrite .cs true])

/-- The validation and elaboration of TRANSFER (R130): no trailing delay. -/
def planTransfer (cfg : Cfg) (word : Int) : Except Cause (List Act) :=
  match checkWord word with
  | .error c => .error c
  | .ok w => .ok (frame cfg w)

/-- TRANSFER (R130). -/
def execTransfer (word : Int) (s : State) : Host.Outcome State Fault Refusal :=
  acceptCommand { bareCommand 0b000#3 with word := word } false (planTransfer s.cfg word) s

end Sys2Proof.Machine
end

