-- ==== Sys2Proof/Machine/Controller.lean ====
section
/-! DEFINITION. The Waveform Device Controller's commands: their validation and elaboration into micro-actions. -/

namespace Sys2Proof.Machine

/-- `transmit(w)` (R150): the frame of `w`, then one inter-word delay. -/
def transmit (cfg : Cfg) (w : Word) : List Act := frame cfg w ++ [.delay .word]

/-- The elaboration of RESET from the register value `r0` (R153). -/
def resetActs (cfg : Cfg) (r0 : Word) : List Act :=
  .setCr (setBits r0 (maskReset cfg)) ::
    (transmit cfg (setBits r0 (maskReset cfg))
      ++ .delay .settle :: .setCr (clearBits r0 (maskReset cfg)) :: transmit cfg (clearBits r0 (maskReset cfg)))

/-- The elaboration of BEGIN (R156): the elaboration of RESET stands inside it, from `r0 = B28`. -/
def beginActs (cfg : Cfg) : List Act :=
  .setCr (maskB28 cfg) :: (transmit cfg (maskB28 cfg) ++ (resetActs cfg (maskB28 cfg) ++ [.setBegun]))

/-- The elaboration of a command that writes `CR` and transmits it (R162, R165). -/
def updateActs (cfg : Cfg) (v : Word) : List Act := .setCr v :: transmit cfg v

/-- The elaboration of SET_FREQUENCY (R175): control word, LSB word, MSB word, then the shadow register. -/
def frequencyActs (cfg : Cfg) (cr : Word) (bank : Bank) (t : TuningWord) : List Act :=
  transmit cfg cr
    ++ (transmit cfg (freqWord cfg bank (lsbHalf t))
      ++ (transmit cfg (freqWord cfg bank (msbHalf t)) ++ [.setFtw bank t]))

/-- The validation and elaboration of SET_MODE (R162). -/
def planSetMode (cfg : Cfg) (cr : Word) (mode : BitVec 3) : Except Cause (List Act) :=
  match checkMode cfg mode with
  | .error c => .error c
  | .ok p => .ok (updateActs cfg (withMode cfg cr p))

/-- The validation and elaboration of SET_ACTIVE_FREQUENCY (R165). -/
def planSetActive (cfg : Cfg) (cr : Word) (channel : Int) : Except Cause (List Act) :=
  match checkChannel channel with
  | .error c => .error c
  | .ok bank => .ok (updateActs cfg (withActiveBank cfg cr bank))

/-- The validation and elaboration of SET_FREQUENCY (R175). -/
def planSetFrequency (cfg : Cfg) (cr : Word) (channel : Int) (freq : Rat) : Except Cause (List Act) :=
  match checkFrequency cfg channel freq with
  | .error c => .error c
  | .ok (bank, t) => .ok (frequencyActs cfg cr bank t)

/-- BEGIN (R156). -/
def execBegin (s : State) : Host.Outcome State Fault Refusal :=
  acceptCommand (bareCommand 0b001#3) false (.ok (beginActs s.cfg)) s

/-- RESET (R153). -/
def execReset (s : State) : Host.Outcome State Fault Refusal :=
  acceptCommand (bareCommand 0b010#3) false (.ok (resetActs s.cfg s.cr)) s

/-- SET_MODE (R162). -/
def execSetMode (mode : BitVec 3) (s : State) : Host.Outcome State Fault Refusal :=
  acceptCommand { bareCommand 0b011#3 with mode := mode } true (planSetMode s.cfg s.cr mode) s

/-- SET_FREQUENCY (R175). -/
def execSetFrequency (channel : Int) (freq : Rat) (s : State) : Host.Outcome State Fault Refusal :=
  acceptCommand { bareCommand 0b100#3 with channel := channel, freq := freq } true
    (planSetFrequency s.cfg s.cr channel freq) s

/-- SET_ACTIVE_FREQUENCY (R165). -/
def execSetActiveFrequency (channel : Int) (s : State) : Host.Outcome State Fault Refusal :=
  acceptCommand { bareCommand 0b101#3 with channel := channel } true (planSetActive s.cfg s.cr channel) s

end Sys2Proof.Machine
end

