-- ==== Sys2Proof/Machine/Device.lean ====
section
/-! DEFINITION. The device words as the waveform device receives them: its own control register, its two
frequency registers and its phase registers (R46), where "the device latches a full 28-bit word only after receiving both halves in sequence following a
register write that declares write-mode" (R64). What the spec leaves open becomes a free value (assumption 8). -/

namespace Sys2Proof.Machine

/-- The bank whose first half is pending, by the place in the sequence (R90). -/
def pendingBank : Latch → Option Bank
  | .closed => none
  | .declared => none
  | .low bank _ => some bank
  | .stray bank => some bank

/-- The premises of R258 on a claim about the device: `T_WORD ≥ t_dev_setup` and `T_SETTLE ≥ t_dev_settle`, and neither delay zero, with
which the device's requirement is not met (R258). DESIGN CHOICE: the two open durations are any rationals, since the spec gives them no
domain; one that is zero or negative asks for no more than a delay that is not zero (assumption 13). -/
def timingMet (cfg : Cfg) (d : Device) : Bool :=
  decide (0 < cfg.tWord) && decide (d.setupTime ≤ cfg.tWord) && (decide (0 < cfg.tSettle) && decide (d.settleTime ≤ cfg.tSettle))

/-- Whether the spec says nothing of the device: a frequency or mode command preceded BEGIN (R250), or the delays are shorter than the
device requires (R258). -/
def deviceOpen (s : State) : Bool := s.early || !timingMet s.cfg s.dev

/-- Whether the word comes from a frame that no `Delay(WORD)` separates from the one before it, so that the device's setup time is not
shown to be met (R253). -/
def crowded (s : State) : Bool := !s.dev.spaced

/-- Whether a controller command sent the word that the device takes: its `Delay(WORD)` is then still to be performed (R150), where a
TRANSFER has ended with the last write of its frame (R130; assumption 13). -/
def sentByController (s : State) : Bool := !s.acts.isEmpty

/-- Whether a control word declares write mode with a stated effect: `B28` set, `HLB` clear (N16) and the device not held
in reset (R155, N5). -/
def declaresWriteMode (cfg : Cfg) (w : Word) : Bool :=
  hasBits w (maskB28 cfg) && !hasBits w (maskHlb cfg) && !hasBits w (maskReset cfg)

/-- Whether a control word leaves the frequency and phase registers open: it holds the device in reset (R155, N26), or it breaks off
a frequency write whose first half has been received (R256, I20). -/
def disturbsRegisters (cfg : Cfg) (latch : Latch) (w : Word) : Bool :=
  hasBits w (maskReset cfg) || (pendingBank latch).isSome

/-- The frequency and phase registers become any value; the control register stays. -/
def loseRegisters (s : State) : State :=
  { s with
    dev := { anyDevice s.free s.dev with ctrl := s.dev.ctrl }
    free := s.free + 1 }

/-- Write the device's control register and open or close its frequency write. -/
def writeCtrl (w : Word) (s : State) : State :=
  { s with
    dev := { s.dev with
      ctrl := w
      latch := if declaresWriteMode s.cfg w then .declared else .closed
      spaced := false } }

/-- The device receives a control word (R46, R86, R257). Its effect is any value where the spec says nothing of the device, with a
reserved bit set (N2, N23), and for a TRANSFER straight after another frame (R253). A controller command's control word is taken also
straight after a TRANSFER (R257), but then nothing is said of the other registers. DESIGN CHOICE: so is the first one after an aborted
frame and a new construction (assumption 13), and a word that clears a `RESET` which a TRANSFER has set, with no settling delay between
them, is taken and declares write mode as any other (R155; assumption 23). DESIGN CHOICE: a device that has had no RESET since its
power-up, which R251 requires, takes every word as any other (assumption 24). -/
def receiveCtrl (w : Word) (s : State) : State :=
  if deviceOpen s || hasBits w (reservedMask s.cfg) || (crowded s && !sentByController s) then loseDevice s
  else if crowded s || disturbsRegisters s.cfg s.dev.latch w then writeCtrl w (loseRegisters s)
  else writeCtrl w s

/-- Note that the first half of a bank has been received where it has no stated effect. It takes the place of another bank's pending
half: DESIGN CHOICE (assumption 22). -/
def strayHalf (bank : Bank) (s : State) : State := { s with dev := { s.dev with latch := .stray bank } }

/-- The device receives the first half of a bank's tuning word (R64): it has its stated effect after a register write that
declares write mode, whether or not a RESET has come before (assumption 24). After a pending half of the other bank it is a first half
without stated effect (assumption 22). -/
def receiveLsb (bank : Bank) (half : Half) (s : State) : State :=
  if deviceOpen s || crowded s then strayHalf bank (loseDevice s)
  else match s.dev.latch with
    | .declared => { s with dev := { s.dev with latch := .low bank half, spaced := false } }
    | .closed => strayHalf bank (loseRegisters s)
    | .low _ _ => strayHalf bank (loseRegisters s)
    | .stray _ => strayHalf bank (loseRegisters s)

/-- The device latches a full tuning word in a bank's register. -/
def latchFreq (bank : Bank) (t : TuningWord) (d : Device) : Device :=
  match bank with
  | .bank0 => { d with freq0 := t, latch := .closed, spaced := false }
  | .bank1 => { d with freq1 := t, latch := .closed, spaced := false }

/-- The device receives the second half of a bank's tuning word (R64): after the first half of the same bank it latches the
full word, whether or not a RESET has come before (assumption 24). -/
def receiveMsb (bank : Bank) (half : Half) (s : State) : State :=
  if deviceOpen s || crowded s then loseDevice s
  else match s.dev.latch with
    | .low first lsb =>
      if first = bank then { s with dev := latchFreq bank (joinHalves half lsb) s.dev } else loseRegisters s
    | .closed => loseRegisters s
    | .declared => loseRegisters s
    | .stray _ => loseRegisters s

/-- A device frequency register. -/
def devFreq (bank : Bank) (d : Device) : TuningWord :=
  match bank with
  | .bank0 => d.freq0
  | .bank1 => d.freq1

/-- DW_CTRL at the device (R86). -/
def execDwCtrl (fields : BitVec 14) (s : State) : Host.Outcome State Fault Refusal :=
  .next (receiveCtrl (ctrlWord fields) s)

/-- DW_FREQ0_LSB at the device (R88). -/
def execDwFreq0Lsb (half : Half) (s : State) : Host.Outcome State Fault Refusal := .next (receiveLsb .bank0 half s)

/-- DW_FREQ0_MSB at the device (R88). -/
def execDwFreq0Msb (half : Half) (s : State) : Host.Outcome State Fault Refusal := .next (receiveMsb .bank0 half s)

/-- DW_FREQ1_LSB at the device (R88). -/
def execDwFreq1Lsb (half : Half) (s : State) : Host.Outcome State Fault Refusal := .next (receiveLsb .bank1 half s)

/-- DW_FREQ1_MSB at the device (R88). -/
def execDwFreq1Msb (half : Half) (s : State) : Host.Outcome State Fault Refusal := .next (receiveMsb .bank1 half s)

end Sys2Proof.Machine
end

