-- ==== Sys2Proof/Machine/Reserved.lean ====
section
/-! DEFINITION. The reserved command codes, which the spec has the model refuse (R94). -/

namespace Sys2Proof.Machine

/-- A reserved command code (R94): no micro-action, no status, and the refusal ends the run. -/
def refuseReserved (code : BitVec 3) : Host.Outcome State Fault Refusal := .refused (.reservedCommandCode code)

/-- Command code `0b110` (R94). -/
def execReserved6 (_s : State) : Host.Outcome State Fault Refusal := refuseReserved 0b110#3

/-- Command code `0b111` (R94). -/
def execReserved7 (_s : State) : Host.Outcome State Fault Refusal := refuseReserved 0b111#3

end Sys2Proof.Machine
end

