-- ==== Sys2Proof/Machine/Dispatch.lean ====
section
/-! DEFINITION. One arm per instruction: a direct call of its meaning. -/

namespace Sys2Proof.Machine

def exec (i : Instr) (s : State) : Host.Outcome State Fault Refusal :=
  match i with
  | .transfer word => Sys2Proof.Machine.execTransfer word s
  | .beginCmd => Sys2Proof.Machine.execBegin s
  | .resetCmd => Sys2Proof.Machine.execReset s
  | .setMode mode => Sys2Proof.Machine.execSetMode mode s
  | .setFrequency channel freq => Sys2Proof.Machine.execSetFrequency channel freq s
  | .setActiveFrequency channel => Sys2Proof.Machine.execSetActiveFrequency channel s
  | .reserved6 => Sys2Proof.Machine.execReserved6 s
  | .reserved7 => Sys2Proof.Machine.execReserved7 s
  | .dwCtrl fields => Sys2Proof.Machine.execDwCtrl fields s
  | .dwFreq0Lsb half => Sys2Proof.Machine.execDwFreq0Lsb half s
  | .dwFreq0Msb half => Sys2Proof.Machine.execDwFreq0Msb half s
  | .dwFreq1Lsb half => Sys2Proof.Machine.execDwFreq1Lsb half s
  | .dwFreq1Msb half => Sys2Proof.Machine.execDwFreq1Msb half s

end Sys2Proof.Machine
end

