-- ==== Sys2Proof/Machine/Fetch.lean ====
section
/-! DEFINITION. What the machine does next: the device takes a word that was emitted, the block performs a micro-action, or
the block takes a command from the port (R8, R13, R44, R80). -/

namespace Sys2Proof.Machine

/-- What the machine does next. -/
inductive Fetched where
  /-- The instance is FAILED (R207). -/
  | failed (line : Line)
  /-- An instruction runs: a command the block accepts, or a word the device received. -/
  | run (i : Instr) (s : State)
  /-- The device received something that is no instruction: its state is any value. -/
  | unknownReceived (s : State)
  /-- The block performs a micro-action. -/
  | act
  /-- The block waits for its next command. -/
  | idle
deriving DecidableEq, Repr

/-- Decode what the device received: a word of the spec's formats is an instruction; a word of no format (R91, I9), a
malformed frame (N23) and an aborted one (I7) are none. -/
def fetchReceived (e : Emission) (s : State) : Fetched :=
  match e with
  | .word w =>
    match decode s.cfg (pendingBank s.dev.latch) (.word w) with
    | .ok i => .run i s
    | .error _ => .unknownReceived s
  | .malformed _ => .unknownReceived s
  | .aborted => .unknownReceived s

/-- What comes next. A word the device received comes before the block's next micro-action (assumption 5). -/
def fetch (s : State) : Fetched :=
  match s.fault with
  | some p => .failed p
  | none =>
    match s.rx with
    | e :: rest => fetchReceived e { s with rx := rest }
    | [] =>
      match s.acts with
      | _ :: _ => .act
      | [] =>
        match s.port with
        | c :: rest => .run (decodeCommand c) { s with port := rest }
        | [] => .idle

/-- Put a packet where the very next step fetches it: a command at the head of the port of an idle sequencer, a word at the
head of what the device received. -/
def placePacket (p : Packet) (s : State) : State :=
  match p with
  | .command c => { s with port := c :: s.port, acts := [], pc := 0, rx := [] }
  | .word w => { s with rx := .word w :: s.rx }

end Sys2Proof.Machine
end

