-- ==== Sys2Proof/Machine/Step.lean ====
section
/-! DEFINITION. One step of the machine. -/

namespace Sys2Proof.Machine

/-- One step: a FAILED instance has none (R207); an instruction runs by `exec`; else one micro-action (R13, R44), or the idle
block waits for its next command (R243). -/
def step (s : State) : Host.Outcome State Fault Refusal :=
  match fetch s with
  | .failed p => .fault (.instanceFailed p)
  | .run i s' => exec i s'
  | .unknownReceived s' => .next (loseDevice s')
  | .act => .next (sequencerStep s)
  | .idle => .next s

/-- The state with an opcode-table row's instruction placed where `step` fetches next; a FAILED instance stays FAILED. -/
def State.withFetchWord (s : State) (nbits w : Nat) : State :=
  match tablePacket nbits w with
  | none => s
  | some p => placePacket p s

end Sys2Proof.Machine
end

