-- ==== Sys2Proof/Machine/Observation.lean ====
section
/-! DEFINITION. Views of micro-actions and of the observation: the driver calls (R60), the events (R15), the golden pair
trace of a frame (R131), and the least duration of a list of micro-actions (R151, R260). -/

namespace Sys2Proof.Machine

/-- A call of the GPIO contract (R60). -/
inductive DriverCall where
  /-- `configure_direction(pin, output)`. -/
  | configureDirection (pin : Nat) (output : Bool)
  /-- `write_level(pin, level)`. -/
  | writeLevel (pin : Nat) (level : Bool)
deriving DecidableEq, Repr

/-- The driver call of a micro-action, naming the pin of its line (R60). -/
def driverCall (cfg : Cfg) : Act → Option DriverCall
  | .gpioDir p => some (.configureDirection (pinOf cfg p) true)
  | .gpioWrite p l => some (.writeLevel (pinOf cfg p) l)
  | .delay _ => none
  | .setCr _ => none
  | .setFtw _ _ => none
  | .setBegun => none

/-- The event of a micro-action that completes; an internal one has none (R15). -/
def actEvent : Act → Option Event
  | .gpioDir p => some (.dir p)
  | .gpioWrite p l => some (.write p l)
  | .delay k => some (.delay k)
  | .setCr _ => none
  | .setFtw _ _ => none
  | .setBegun => none

/-- The events of a list of micro-actions that all complete (R15). -/
def actEvents (as : List Act) : List Event := as.filterMap actEvent

/-- The events of a completed frame (R121). -/
def frameEvents (cfg : Cfg) (w : Word) : List Event := actEvents (frame cfg w)

/-- The trace without the statuses: what the spec counts as events. -/
def eventsOnly (t : List Event) : List Event :=
  t.filter (fun e => match e with
    | .status _ => false
    | .dir _ => true
    | .write _ _ => true
    | .delay _ => true
    | .fail _ => true)

/-- The pairs `(pin[CLK], pin[DATA])` after each write to CLK or DATA (R131). -/
def pairTrace : Pins → List Event → List (Level × Level)
  | _, [] => []
  | pins, e :: es =>
    match e with
    | .write .clk l => (.known l, pins.data) :: pairTrace { pins with clk := .known l } es
    | .write .data l => (pins.clk, .known l) :: pairTrace { pins with data := .known l } es
    | .write .cs l => pairTrace { pins with cs := .known l } es
    | .dir _ => pairTrace pins es
    | .delay _ => pairTrace pins es
    | .fail _ => pairTrace unknownPins es
    | .status _ => pairTrace pins es

/-- The duration of one kind of delay (R151). -/
def delayTime (cfg : Cfg) : DelayKind → Rat
  | .word => cfg.tWord
  | .settle => cfg.tSettle

/-- The least duration of one micro-action: a delay's; nothing is said of the others (R132, R214). -/
def actTime (cfg : Cfg) : Act → Rat
  | .delay k => delayTime cfg k
  | .gpioDir _ => 0
  | .gpioWrite _ _ => 0
  | .setCr _ => 0
  | .setFtw _ _ => 0
  | .setBegun => 0

/-- The least duration of a list of micro-actions (R260). -/
def leastDuration (cfg : Cfg) (as : List Act) : Rat := (as.map (actTime cfg)).sum

end Sys2Proof.Machine
end

