-- ==== Sys2Proof/Safety.lean ====
section
/-! DEFINITION. What counts as a safe run, in the terms the statements use: an instance at rest, a driver that completes every
call, the invariant that every step keeps, what a completed command leaves, and what a device word and the device's
registers can influence. -/

namespace Sys2Proof.Safety

open Sys2Proof.Machine

/-- No draw of the driver fails (R205): the premise of a statement about a completed command. -/
def NoFailure (s : State) : Prop := ∀ a ∈ s.answers, a = DriverAnswer.completed

/-- The block takes a command: it has not failed and no command is in progress (R44, R207). -/
structure Accepting (s : State) : Prop where
  noFault : s.fault = none
  noActs : s.acts = []

/-- The reference observer and the block agree on the lines (R41, R128). -/
structure Synced (s : State) : Prop where
  running : s.obs.stopped = false
  clk : s.pins.clk = .known s.obs.clk
  cs : s.pins.cs = .known s.obs.cs
  data : s.pins.data = s.obs.data

/-- An instance at rest: not FAILED, no command in progress, nothing for the device to take, the clock at its idle level and
the select line high (R125). -/
structure AtRest (s : State) : Prop where
  valid : cfgValid s.cfg = true
  noFault : s.fault = none
  noActs : s.acts = []
  pcZero : s.pc = 0
  noReceived : s.rx = []
  clk : s.pins.clk = .known s.cfg.cpol
  cs : s.pins.cs = .known true
  synced : Synced s

/-- The micro-actions still to be performed (R44). -/
def remaining (s : State) : List Act := s.acts.drop s.pc

/-- The Control Register after micro-actions that all complete. -/
def crAfter : Word → List Act → Word
  | cr, [] => cr
  | cr, a :: as =>
    match a with
    | .setCr v => crAfter v as
    | .gpioDir _ => crAfter cr as
    | .gpioWrite _ _ => crAfter cr as
    | .delay _ => crAfter cr as
    | .setFtw _ _ => crAfter cr as
    | .setBegun => crAfter cr as

/-- The lines after micro-actions that all complete. -/
def pinsAfter : Pins → List Act → Pins
  | pins, [] => pins
  | pins, a :: as =>
    match a with
    | .gpioWrite p l => pinsAfter (setPin p (.known l) pins) as
    | .gpioDir _ => pinsAfter pins as
    | .delay _ => pinsAfter pins as
    | .setCr _ => pinsAfter pins as
    | .setFtw _ _ => pinsAfter pins as
    | .setBegun => pinsAfter pins as

/-- What holds of an instance that has not failed. -/
structure RunningInv (s : State) : Prop where
  /-- The three directions are configured (R42). -/
  dirs : s.dirs = { clk := true, data := true, cs := true }
  /-- The block and the observer agree on the lines. -/
  synced : Synced s
  /-- The command in progress ends with `RESET` clear (R34). -/
  resetClears : hasBits (crAfter s.cr (remaining s)) (maskReset s.cfg) = false
  /-- The command in progress ends with the clock idle (R125). -/
  clockReturns : (pinsAfter s.pins (remaining s)).clk = .known s.cfg.cpol
  /-- The command in progress ends with the select line high (R125). -/
  selectReturns : (pinsAfter s.pins (remaining s)).cs = .known true

/-- The invariant of the machine. -/
structure Inv (s : State) : Prop where
  /-- The configuration is valid (R242). -/
  valid : cfgValid s.cfg = true
  /-- No reserved bit of `CR` is set (R34). -/
  reserved : hasBits s.cr (reservedMask s.cfg) = false
  /-- No micro-action sets a reserved bit (R32). -/
  reservedActs : ∀ v, Act.setCr v ∈ s.acts → hasBits v (reservedMask s.cfg) = false
  /-- `pc` points at a micro-action of the command in progress, or the sequencer is idle at 0 (R44). -/
  pcInRange : s.pc < s.acts.length ∨ (s.acts = [] ∧ s.pc = 0)
  /-- No command has more than 158 micro-actions (R44). -/
  bounded : s.acts.length ≤ 158
  /-- A FAILED instance knows no line and has no command in progress (R206). -/
  failed : s.fault ≠ none → s.pins = unknownPins ∧ s.acts = []
  /-- An instance that has not failed. -/
  running : s.fault = none → RunningInv s

/-- What every completed command leaves from an instance at rest: the events it added, the instance at rest again, and
every other part of the block as it was. -/
structure CompletedWith (s u : State) (events : List Event) : Prop where
  trace : u.trace = s.trace ++ events
  atRest : AtRest u
  noFailure : NoFailure u
  cfg : u.cfg = s.cfg
  dirs : u.dirs = s.dirs
  port : u.port = s.port
  /-- The last word is followed by its inter-word delay (R150, R253). -/
  spaced : u.dev.spaced = true

/-- The device takes control words with the effect the spec states: the premise of R250 is not broken, the premises of R258 hold, and
`CR` has no reserved bit set (N2, R34). -/
structure DeviceDefined (s : State) : Prop where
  notEarly : s.early = false
  timing : timingMet s.cfg s.dev = true
  plain : hasBits s.cr (reservedMask s.cfg) = false

/-- The statuses of a stretch of the observation. -/
def statusesOf (t : List Event) : List Status :=
  t.filterMap (fun e => match e with
    | .status st => some st
    | .dir _ => none
    | .write _ _ => none
    | .delay _ => none
    | .fail _ => none)

/-- The other bank. -/
def otherBank : Bank → Bank
  | .bank0 => .bank1
  | .bank1 => .bank0

/-- The bit of `w` that the `k`-th bit step sends, as a known level. -/
def sentBit (cfg : Cfg) (w : Word) (k : Nat) : Bool := w.getLsbD (bitIndex cfg.order k)

/-- The state without what no event depends on: `FTW`, `begun`, the device, what its words carry, and the model's own
fields (R40, R43, R46). -/
def blockView (s : State) : State :=
  { s with
    ftw0 := none
    ftw1 := none
    begun := false
    dev := Device.powerUp
    early := false
    free := 0
    obs := { s.obs with acc := 0#16 }
    rx := s.rx.map (fun _ => .aborted) }

end Sys2Proof.Safety
end

