-- ==== Sys2Proof/Certificates/Slice0/Obligations.lean ====
section
/-! DEFINITION. The statements for the provers, one `def Obligations.<Name> : Prop` each; OBLIGATIONS.json lists them. -/

open Sys2Proof Sys2Proof.Machine Sys2Proof.Safety

/-! ### The step, decoding and encoding -/

/-- A step of an instance that has not failed runs exactly the fetched instruction: the record at the head of the command port
of an idle sequencer (R44, R80), or the word at the head of what the device received (R90). That the device takes its word
before the block goes on is the model's choice (assumption 5). -/
def Obligations.StepRunsTheFetchedInstruction : Prop :=
  ∀ (s : State) (i : Instr), s.fault = none →
    (∀ c rest, s.rx = [] → s.acts = [] → s.port = c :: rest → decode s.cfg none (.command c) = .ok i →
      step s = exec i { s with port := rest }) ∧
    (∀ w rest, s.rx = .word w :: rest → decode s.cfg (pendingBank s.dev.latch) (.word w) = .ok i →
      step s = exec i { s with rx := rest })

/-- With nothing for the device to take, a step performs one micro-action of the command in progress, and an idle block with
nothing on its port waits (R44, R243). -/
def Obligations.StepPerformsOrWaits : Prop :=
  ∀ s : State, s.fault = none → s.rx = [] →
    (s.acts ≠ [] → step s = .next (sequencerStep s)) ∧ (s.acts = [] → s.port = [] → step s = .next s)

/-- Words and records written out from the spec's encodings decode to the instructions they stand for (R81, R86, R88, R89), the second
half of a bank by its place in the sequence, and a word of the fourth tag to none (R90). That an 8-bit row is read as a record with
every operand zero, and a word asked without a sequence as a first half, is the model's choice (assumption 17). -/
def Obligations.WrittenOutEncodingsDecode : Prop :=
  decodeTableWord 8 0b00000000 = some (.transfer 0) ∧
  decodeTableWord 8 0b00000001 = some .beginCmd ∧
  decodeTableWord 8 0b00000101 = some (.setActiveFrequency 0) ∧
  decodeTableWord 16 0b0010000100000000 = some (.dwCtrl 0b10000100000000#14) ∧
  decodeTableWord 16 0b0110100111110001 = some (.dwFreq0Lsb 0b10100111110001#14) ∧
  decode defaultCfg (some .bank1) (.word 0b1000001010001111#16) = .ok (.dwFreq1Msb 0b00001010001111#14) ∧
  decode defaultCfg none (.word 0b1100000100100011#16) = .error (.tagOfNoFormat 0b11#2)

/-- Every record decodes by its op code alone, to the command of the table with the operands that command takes (R81, R82). -/
def Obligations.RecordsDecodeByOpCode : Prop :=
  ∀ (word channel : Int) (mode : BitVec 3) (freq : Rat),
    let record (op : BitVec 3) : Command := { op := op, word := word, channel := channel, mode := mode, freq := freq }
    decodeCommand (record 0b000#3) = .transfer word ∧
    decodeCommand (record 0b001#3) = .beginCmd ∧
    decodeCommand (record 0b010#3) = .resetCmd ∧
    decodeCommand (record 0b011#3) = .setMode mode ∧
    decodeCommand (record 0b100#3) = .setFrequency channel freq ∧
    decodeCommand (record 0b101#3) = .setActiveFrequency channel ∧
    decodeCommand (record 0b110#3) = .reserved6 ∧
    decodeCommand (record 0b111#3) = .reserved7

/-- HEADLINE. Decoding the encoding of any instruction gives it back, under every configuration whose tags meet R89 and at
every place of the sequence where the instruction can stand (R81, R86, R88, R90). -/
def Obligations.EncodingThenDecodingIsIdentity : Prop :=
  ∀ (cfg : Cfg) (pending : Option Bank) (i : Instr), tagsValid cfg = true → fitsPlace pending i = true →
    decode cfg pending (encode cfg i) = .ok i

/-- A control word carries tag `0b00` and a frequency word its bank's tag over its half, so that no frequency word is read as a
control word (R32, R88, R89, R91). -/
def Obligations.ControllerWordsCarryTheirTags : Prop :=
  ∀ (cfg : Cfg) (r : Word) (bank : Bank) (half : Half), cfgValid cfg = true →
    (hasBits r (reservedMask cfg) = false → wordTag r = 0b00#2) ∧
    wordTag (freqWord cfg bank half) = freqTag cfg bank ∧ wordPayload (freqWord cfg bank half) = half ∧
    wordTag (freqWord cfg bank half) ≠ 0b00#2 ∧
    wordTag (freqWord cfg .bank0 half) ≠ wordTag (freqWord cfg .bank1 half)

/-! ### Construction -/

/-- Construction with a valid configuration beside instances whose pins it does not share, when none of its five calls fails,
gives exactly the stated state, and the answers it did not use are left (R240, R241). -/
def Obligations.ConstructionGivesTheStatedState : Prop :=
  ∀ (others : List Cfg) (cfg : Cfg) (answers : List DriverAnswer) (dev : Device) (free : Nat),
    cfgValid cfg = true → (∀ o ∈ others, sharesPin cfg o = false) →
    (∀ a ∈ answers.take 5, a = DriverAnswer.completed) →
    construct others cfg answers dev free = .next (State.constructed cfg (answers.drop 5) dev free)

/-- Construction whose call number `k + 1` is the first that fails gives a FAILED instance: the events of the calls before it,
the failure on that call's line and the status, every line at `X`, `CR` zero and both shadow registers `none` (R206, R240), and the device untouched (R243). -/
def Obligations.ConstructionFailsAtTheFailingCall : Prop :=
  ∀ (cfg : Cfg) (dev : Device) (free : Nat) (rest : List DriverAnswer) (k : Nat) (p : Line),
    cfgValid cfg = true → [Line.clk, Line.data, Line.cs, Line.cs, Line.clk][k]? = some p →
    ∃ s, construct [] cfg (List.replicate k .completed ++ .failed :: rest) dev free = .next s ∧
      s.fault = some p ∧ s.pins = unknownPins ∧ s.cr = 0#16 ∧ s.ftw0 = none ∧ s.ftw1 = none ∧ s.begun = false ∧
      s.dev = dev ∧ s.free = free ∧
      s.trace = (constructionTrace cfg).take k ++ [.fail p, .status (.hardwareIoFailure p)]

/-- A configuration that is not valid is refused, and so is one that shares a pin with another instance's (R75, R242). -/
def Obligations.ConstructionRefusesBadConfigurations : Prop :=
  ∀ (others : List Cfg) (cfg : Cfg) (answers : List DriverAnswer) (dev : Device) (free : Nat),
    (cfgValid cfg = false → construct others cfg answers dev free = .refused .invalidConfiguration) ∧
    (cfgValid cfg = true → (∃ o ∈ others, sharesPin cfg o = true) →
      construct others cfg answers dev free = .refused .pinsShared)

/-- `CR` is `0x0000` at construction, whatever the driver answers (R36). -/
def Obligations.ControlRegisterIsZeroAtConstruction : Prop :=
  ∀ (others : List Cfg) (cfg : Cfg) (answers : List DriverAnswer) (dev : Device) (free : Nat) (s : State),
    construct others cfg answers dev free = .next s → s.cr = 0x0000#16

/-- The reset state is the one that construction with the default configuration leaves (R241), and nothing has been sent to the
device. The default configuration is the spec's own choice, and the device's registers in it are the model's (assumption 7). -/
def Obligations.ResetIsAConstructedInstance : Prop :=
  construct [] defaultCfg [] Device.powerUp 0 = .next State.reset ∧
  observeAll defaultCfg false (Observer.start defaultCfg) State.reset.trace = []

/-! ### The sequencer -/

/-- A micro-action that asks no driver, or whose call the driver completes, has its effect and its event, and the sequencer moves
on, or the command completes with status OK (R12, R15, R44, R152). The model's own clauses are those of the device and of `early`: the
device takes a word in a later step of its own (assumption 5), a `Delay(WORD)` marks that the next frame is separated (assumption 13), and
`early` marks R250's premise (assumption 10). -/
def Obligations.MicroActionTakesEffect : Prop :=
  ∀ (s : State) (a : Act), s.fault = none → s.rx = [] → s.acts[s.pc]? = some a →
    (actLine a = none ∨ nextAnswer s = .completed) →
    ∃ t, step s = .next t ∧ t.fault = none ∧ t.cr = crAfter s.cr [a] ∧ t.pins = pinsAfter s.pins [a] ∧
      (∀ p, dirSet p t.dirs = (dirSet p s.dirs || (a == .gpioDir p))) ∧
      (∀ c v, a = .setFtw c v → ftwOf c t = some v ∧ ftwOf (otherBank c) t = ftwOf (otherBank c) s) ∧
      ((∀ c v, a ≠ .setFtw c v) → t.ftw0 = s.ftw0 ∧ t.ftw1 = s.ftw1) ∧
      t.begun = (s.begun || (a == .setBegun)) ∧
      t.answers = (if actLine a = none then s.answers else s.answers.tail) ∧
      t.cfg = s.cfg ∧ t.port = s.port ∧ t.early = s.early ∧
      t.dev = (if a = .delay .word then { s.dev with spaced := true } else s.dev) ∧
      (s.pc + 1 < s.acts.length →
        t.acts = s.acts ∧ t.pc = s.pc + 1 ∧ t.trace = s.trace ++ (actEvent a).toList) ∧
      (s.acts.length = s.pc + 1 →
        t.acts = [] ∧ t.pc = 0 ∧ t.trace = s.trace ++ (actEvent a).toList ++ [.status .ok])

/-- A GPIO micro-action whose call fails ends the command there: the failure and the status are recorded, every line becomes
`X`, the fault is set, the other micro-actions are not performed, and what internal micro-actions wrote stands (R206, R209). -/
def Obligations.FailedCallEndsTheCommand : Prop :=
  ∀ (s : State) (a : Act) (p : Line), s.fault = none → s.rx = [] → s.acts[s.pc]? = some a → actLine a = some p →
    nextAnswer s = .failed →
    ∃ t, step s = .next t ∧ t.fault = some p ∧ t.pins = unknownPins ∧ t.acts = [] ∧
      t.trace = s.trace ++ [.fail p, .status (.hardwareIoFailure p)] ∧
      t.cr = s.cr ∧ t.ftw0 = s.ftw0 ∧ t.ftw1 = s.ftw1 ∧ t.begun = s.begun ∧ t.dirs = s.dirs ∧ t.cfg = s.cfg ∧
      t.port = s.port

/-- The fault is NONE when construction begins and when it has not failed, becomes IO_FAILURE of the line of a GPIO micro-action that fails, and
is never cleared: a FAILED instance has no step and takes no command; INVALID_ARGUMENT is stored nowhere but in the observation
(R45). -/
def Obligations.FaultIsStickyAndTerminal : Prop :=
  (∀ (cfg : Cfg) (answers : List DriverAnswer) (dev : Device) (free : Nat),
    (blankState cfg answers dev free).fault = none ∧ (State.constructed cfg answers dev free).fault = none) ∧
  (∀ (s : State) (a : Act) (p : Line), actLine a = some p → nextAnswer s = .failed → (performAct a s).fault = some p) ∧
  (∀ (s : State) (p : Line), s.fault = some p →
    step s = .fault (.instanceFailed p) ∧
    ∀ (word channel : Int) (mode : BitVec 3) (freq : Rat),
      exec (.transfer word) s = .fault (.instanceFailed p) ∧ exec .beginCmd s = .fault (.instanceFailed p) ∧
      exec .resetCmd s = .fault (.instanceFailed p) ∧ exec (.setMode mode) s = .fault (.instanceFailed p) ∧
      exec (.setFrequency channel freq) s = .fault (.instanceFailed p) ∧
      exec (.setActiveFrequency channel) s = .fault (.instanceFailed p)) ∧
  (∀ (s : State) (c : Cause),
    raiseInvalid c s = { s with trace := s.trace ++ [.status (.invalidArgument c)] })

/-- The configuration is the one given at construction, and no instruction and no step changes it (R22). -/
def Obligations.ConfigurationNeverChanges : Prop :=
  (∀ (others : List Cfg) (cfg : Cfg) (answers : List DriverAnswer) (dev : Device) (free : Nat) (s : State),
    construct others cfg answers dev free = .next s → s.cfg = cfg) ∧
  (∀ (i : Instr) (s t : State), exec i s = .next t → t.cfg = s.cfg) ∧
  (∀ s t : State, step s = .next t → t.cfg = s.cfg)

/-- A direction call that completes sets the direction of its line and no other, and one that fails sets none; the three directions
are set at construction and never cleared by a step, and no command configures a direction again (R42). -/
def Obligations.DirectionsAreNeverCleared : Prop :=
  (∀ (s : State) (p q : Line),
    (nextAnswer s = .completed →
      dirSet q (performAct (.gpioDir p) s).dirs = (dirSet q s.dirs || decide (q = p))) ∧
    (nextAnswer s = .failed → (performAct (.gpioDir p) s).dirs = s.dirs)) ∧
  (∀ (cfg : Cfg) (answers : List DriverAnswer) (dev : Device) (free : Nat) (s : State),
    construct [] cfg answers dev free = .next s → s.fault = none → ∀ p, dirSet p s.dirs = true) ∧
  (∀ (s t : State) (p : Line), step s = .next t → dirSet p s.dirs = true → dirSet p t.dirs = true) ∧
  (∀ (i : Instr) (s t : State) (p : Line), s.acts = [] → exec i s = .next t → Act.gpioDir p ∉ t.acts)

/-- A step changes `CR`, a shadow register or `begun` only by performing the micro-action that writes it, and never clears
`begun` (R33, R40, R43). -/
def Obligations.RegistersChangeOnlyByTheirMicroAction : Prop :=
  ∀ s t : State, step s = .next t →
    (t.cr ≠ s.cr → s.acts[s.pc]? = some (.setCr t.cr)) ∧
    (∀ c, ftwOf c t ≠ ftwOf c s → ∃ v, s.acts[s.pc]? = some (.setFtw c v) ∧ ftwOf c t = some v) ∧
    (t.begun ≠ s.begun → s.acts[s.pc]? = some .setBegun ∧ t.begun = true)

/-- A step only extends the observation; a step that leaves a command in progress returns no status, and the step that ends a
command returns exactly one (R13, R69, R200). -/
def Obligations.OneStatusWhenACommandEnds : Prop :=
  ∀ s t : State, step s = .next t →
    ∃ new, t.trace = s.trace ++ new ∧
      (t.acts ≠ [] → statusesOf new = []) ∧
      (s.acts ≠ [] → t.acts = [] → (statusesOf new).length = 1)

/-! ### Accepting commands -/

/-- TRANSFER of a word in range is elaborated into its frame, with no delay (R130). -/
def Obligations.TransferIsElaborated : Prop :=
  ∀ (s : State) (word : Int), Accepting s → 0 ≤ word → word ≤ 65535 →
    exec (.transfer word) s = .next { s with acts := frame s.cfg (BitVec.ofInt 16 word), pc := 0 }

/-- BEGIN is elaborated into `CR <- B28`, its transmission, the elaboration of RESET from `B28`, and `begun <- true` (R156). -/
def Obligations.BeginIsElaborated : Prop :=
  ∀ s : State, Accepting s →
    exec .beginCmd s = .next { s with
      acts := [.setCr (maskB28 s.cfg)] ++ frame s.cfg (maskB28 s.cfg) ++ [.delay .word]
        ++ [.setCr (maskB28 s.cfg ||| maskReset s.cfg)] ++ frame s.cfg (maskB28 s.cfg ||| maskReset s.cfg) ++ [.delay .word]
        ++ [.delay .settle]
        ++ [.setCr (maskB28 s.cfg &&& ~~~ maskReset s.cfg)] ++ frame s.cfg (maskB28 s.cfg &&& ~~~ maskReset s.cfg)
        ++ [.delay .word] ++ [.setBegun]
      pc := 0 }

/-- RESET is elaborated into the register with `RESET` set, the settling delay, and the register with `RESET` clear (R153). -/
def Obligations.ResetIsElaborated : Prop :=
  ∀ s : State, Accepting s →
    exec .resetCmd s = .next { s with
      acts := [.setCr (s.cr ||| maskReset s.cfg)] ++ frame s.cfg (s.cr ||| maskReset s.cfg) ++ [.delay .word]
        ++ [.delay .settle]
        ++ [.setCr (s.cr &&& ~~~ maskReset s.cfg)] ++ frame s.cfg (s.cr &&& ~~~ maskReset s.cfg) ++ [.delay .word]
      pc := 0 }

/-- SET_MODE of a code 0..4 is elaborated into `CR <- (CR & ~MODE_MASK) | MODE_PATTERN[mode]` and its transmission (R85, R162). The
field `early` is the model's mark of R250's premise (assumption 10). -/
def Obligations.SetModeIsElaborated : Prop :=
  ∀ (s : State) (mode : BitVec 3) (pattern : Word), Accepting s →
    [s.cfg.patterns.sine, s.cfg.patterns.triangle, s.cfg.patterns.square1, s.cfg.patterns.square2,
      s.cfg.patterns.off][mode.toNat]? = some pattern →
    exec (.setMode mode) s = .next { s with
      acts := [.setCr ((s.cr &&& ~~~ s.cfg.modeMask) ||| pattern)]
        ++ frame s.cfg ((s.cr &&& ~~~ s.cfg.modeMask) ||| pattern) ++ [.delay .word]
      pc := 0, early := s.early || !s.begun }

/-- SET_ACTIVE_FREQUENCY sets or clears `FSELECT` and transmits the register (R165). The field `early` is the model's mark of R250's
premise (assumption 10). -/
def Obligations.SetActiveFrequencyIsElaborated : Prop :=
  ∀ s : State, Accepting s →
    exec (.setActiveFrequency 1) s = .next { s with
      acts := [.setCr (s.cr ||| maskFselect s.cfg)] ++ frame s.cfg (s.cr ||| maskFselect s.cfg) ++ [.delay .word]
      pc := 0, early := s.early || !s.begun } ∧
    exec (.setActiveFrequency 0) s = .next { s with
      acts := [.setCr (s.cr &&& ~~~ maskFselect s.cfg)] ++ frame s.cfg (s.cr &&& ~~~ maskFselect s.cfg) ++ [.delay .word]
      pc := 0, early := s.early || !s.begun }

/-- SET_FREQUENCY on bank 0 or 1 with a frequency whose tuning word fits 28 bits sends the control word, the LSB word and the MSB
word, each followed by a delay, and then loads the shadow register (R175, R88). The field `early` is the model's mark of R250's
premise (assumption 10). -/
def Obligations.SetFrequencyIsElaborated : Prop :=
  ∀ (s : State) (channel : Int) (bank : Bank) (freq : Rat) (t : TuningWord), Accepting s →
    (channel = 0 ∧ bank = .bank0 ∨ channel = 1 ∧ bank = .bank1) → 0 ≤ freq →
    tuningCandidate s.cfg freq = t.toNat →
    exec (.setFrequency channel freq) s = .next { s with
      acts := frame s.cfg s.cr ++ [.delay .word]
        ++ frame s.cfg (freqTag s.cfg bank ++ t.extractLsb' 0 14) ++ [.delay .word]
        ++ frame s.cfg (freqTag s.cfg bank ++ t.extractLsb' 14 14) ++ [.delay .word]
        ++ [.setFtw bank t]
      pc := 0, early := s.early || !s.begun }

/-- A command that fails its validation changes nothing but that its status is returned, and the block is ready for the next
command (R202): every INVALID_ARGUMENT of the table, with its cause and the value recorded (R83, R165, R201), in the fixed order of the
checks (R203). The causes, the checks of ranges and their order are the spec's own decisions (D6, D8, D16, D17). -/
def Obligations.InvalidArgumentChangesNothing : Prop :=
  ∀ s : State, Accepting s →
    let rejected (c : Cause) : Host.Outcome State Fault Refusal :=
      .next { s with trace := s.trace ++ [.status (.invalidArgument c)] }
    (∀ word : Int, word < 0 ∨ 65535 < word → exec (.transfer word) s = rejected (.wordRange word)) ∧
    (∀ mode : BitVec 3, 4 < mode.toNat → exec (.setMode mode) s = rejected (.unsupportedMode mode)) ∧
    (∀ channel : Int, channel ≠ 0 → channel ≠ 1 →
      exec (.setActiveFrequency channel) s = rejected (.channel channel) ∧
      ∀ freq : Rat, exec (.setFrequency channel freq) s = rejected (.channel channel)) ∧
    (∀ (channel : Int) (freq : Rat), channel = 0 ∨ channel = 1 → freq < 0 →
      exec (.setFrequency channel freq) s = rejected (.freqRange freq)) ∧
    (∀ (channel : Int) (freq : Rat), channel = 0 ∨ channel = 1 → 0 ≤ freq → 2 ^ 28 ≤ tuningCandidate s.cfg freq →
      s.cfg.overflowPolicy = .reject →
      exec (.setFrequency channel freq) s = rejected (.freqOverflow (tuningCandidate s.cfg freq)))

/-- An accepting block takes up a command exactly when the command is well-formed: its operands are in the domains of R83 and its code is
not reserved (R83, R94). -/
def Obligations.WellFormedCommandsAreTakenUp : Prop :=
  ∀ (s : State) (i : Instr) (c : Command), Accepting s → commandOf s.cfg i = some c →
    ((∃ t, exec i s = .next t ∧ t.acts ≠ []) ↔ i.wellFormed s.cfg = true)

/-- Under SATURATE an overflowing frequency loads the maximum tuning word; nothing wraps (R170). -/
def Obligations.SaturationLoadsTheMaximum : Prop :=
  ∀ (s : State) (channel : Int) (bank : Bank) (freq : Rat), Accepting s →
    (channel = 0 ∧ bank = .bank0 ∨ channel = 1 ∧ bank = .bank1) → 0 ≤ freq → 2 ^ 28 ≤ tuningCandidate s.cfg freq →
    s.cfg.overflowPolicy = .saturate →
    ∃ t, exec (.setFrequency channel freq) s = .next t ∧
      t.acts = frequencyActs s.cfg s.cr bank 0x0FFFFFFF#28 ∧ t.trace = s.trace ∧ t.cr = s.cr

/-- A command presented while another is in progress is not accepted, and nothing changes (R8, R44), but that its record waits at the head
of the port, which is the model's choice (assumption 11). -/
def Obligations.HostWaitsWhileACommandRuns : Prop :=
  ∀ (s : State) (i : Instr) (c : Command), s.fault = none → s.acts ≠ [] → commandOf s.cfg i = some c →
    i ≠ .reserved6 → i ≠ .reserved7 → exec i s = .next { s with port := c :: s.port }

/-- The reserved command codes are refused in every state (R94). -/
def Obligations.ReservedCodesAreRefused : Prop :=
  ∀ s : State, exec .reserved6 s = .refused (.reservedCommandCode 6#3) ∧
    exec .reserved7 s = .refused (.reservedCommandCode 7#3)

/-- Channel 0 selects bank 0, that is `FREQ_TAG[0]` and `FSELECT = 0`; channel 1 selects bank 1, that is `FREQ_TAG[1]` and
`FSELECT = 1`; no other integer names a bank (R84). -/
def Obligations.ChannelsNameTheBanks : Prop :=
  ∀ (cfg : Cfg) (r : Word), cfgValid cfg = true →
    checkChannel 0 = .ok .bank0 ∧ freqTag cfg .bank0 = cfg.freqTag0 ∧
      hasBits (withActiveBank cfg r .bank0) (maskFselect cfg) = false ∧
    checkChannel 1 = .ok .bank1 ∧ freqTag cfg .bank1 = cfg.freqTag1 ∧
      hasBits (withActiveBank cfg r .bank1) (maskFselect cfg) = true ∧
    ∀ channel : Int, channel ≠ 0 → channel ≠ 1 → checkChannel channel = .error (.channel channel)

/-! ### The frame -/

/-- The frame of a word is exactly 50 writes: select, for each of the 16 positions in `ORDER` the three writes that `CPHA` gives, and
deselect; each that completes sets its line and records its write, and one that fails ends the command (R121). -/
def Obligations.FrameIsFiftyWritesInOrder : Prop :=
  (∀ (cfg : Cfg) (w : Word),
    (frame cfg w).length = 50 ∧ (frame cfg w)[0]? = some (.gpioWrite .cs false) ∧
    (frame cfg w)[49]? = some (.gpioWrite .cs true) ∧
    ∀ k, k < 16 →
      let b := w.getLsbD (match cfg.order with | .msbFirst => 15 - k | .lsbFirst => k)
      ((frame cfg w).drop (1 + 3 * k)).take 3 =
        match cfg.cpha with
        | .first => [.gpioWrite .data b, .gpioWrite .clk (!cfg.cpol), .gpioWrite .clk cfg.cpol]
        | .second => [.gpioWrite .clk (!cfg.cpol), .gpioWrite .data b, .gpioWrite .clk cfg.cpol]) ∧
  (∀ (s : State) (p : Line) (l : Bool),
    (nextAnswer s = .completed →
      (performAct (.gpioWrite p l) s).pins = setPin p (.known l) s.pins ∧
      (performAct (.gpioWrite p l) s).trace = s.trace ++ [.write p l]) ∧
    (nextAnswer s = .failed →
      (performAct (.gpioWrite p l) s).fault = some p ∧ (performAct (.gpioWrite p l) s).acts = []))

/-- The bit step for both phases: data, active edge, idle edge for `CPHA = 0`, where the edge that leaves the idle level samples;
active edge, data, idle edge for `CPHA = 1`, where the edge back to it samples (R122, R123). -/
def Obligations.BitStepOrderFollowsThePhase : Prop :=
  ∀ (cfg : Cfg) (b : Bool),
    (cfg.cpha = .first →
      bitStep cfg b = [.gpioWrite .data b, .gpioWrite .clk (!cfg.cpol), .gpioWrite .clk cfg.cpol] ∧
      edgeIsSampling cfg cfg.cpol = true ∧ edgeIsSampling cfg (!cfg.cpol) = false) ∧
    (cfg.cpha = .second →
      bitStep cfg b = [.gpioWrite .clk (!cfg.cpol), .gpioWrite .data b, .gpioWrite .clk cfg.cpol] ∧
      edgeIsSampling cfg (!cfg.cpol) = true ∧ edgeIsSampling cfg cfg.cpol = false)

/-- HEADLINE, the frame law: the reference observer with the block's own configuration reads a completed frame of any word as exactly
that word, in every mode and bit order, whatever a read of `X` would give (R128, R129). -/
def Obligations.ObserverReadsTheWordOfItsFrame : Prop :=
  ∀ (cfg : Cfg) (w : Word) (fresh : Bool) (o : Observer),
    o.stopped = false → o.cs = true → o.clk = cfg.cpol →
    observeAll cfg fresh o (frameEvents cfg w) = [.word w]

/-- In a bit step seen by a selected observer with the clock idle, exactly one write is a sampling edge: the second for `CPHA = 0`, the
third for `CPHA = 1`; its direction is that of the table of R127, and the data line then holds the step's bit. -/
def Obligations.OneSamplingEdgePerBit : Prop :=
  ∀ (cfg : Cfg) (b fresh : Bool) (o : Observer), o.stopped = false → o.cs = false → o.clk = cfg.cpol →
    ∃ e1 e2 e3, actEvents (bitStep cfg b) = [e1, e2, e3] ∧
      let o1 := (observe cfg fresh o e1).1
      let o2 := (observe cfg fresh o1 e2).1
      takesSample cfg o e1 = false ∧ takesSample cfg o1 e2 = (cfg.cpha == .first) ∧
      takesSample cfg o2 e3 = (cfg.cpha == .second) ∧
      (cfg.cpha = .first → o1.data = .known b ∧
        e2 = .write .clk (samplingEdge cfg.cpol cfg.cpha == .rising)) ∧
      (cfg.cpha = .second → o2.data = .known b ∧
        e3 = .write .clk (samplingEdge cfg.cpol cfg.cpha == .rising))

/-- The golden pair trace of a frame: three pairs for each bit step, where for `CPHA = 1` the first pair still shows the data level
before the step (R131). -/
def Obligations.GoldenPairsOfAFrame : Prop :=
  ∀ (cfg : Cfg) (w : Word) (pins : Pins), pins.clk = .known cfg.cpol →
    pairTrace pins (frameEvents cfg w) =
      (List.range 16).flatMap (fun k =>
        match cfg.cpha with
        | .first => [(.known cfg.cpol, .known (sentBit cfg w k)), (.known (!cfg.cpol), .known (sentBit cfg w k)),
            (.known cfg.cpol, .known (sentBit cfg w k))]
        | .second => [(.known (!cfg.cpol), if k = 0 then pins.data else .known (sentBit cfg w (k - 1))),
            (.known (!cfg.cpol), .known (sentBit cfg w k)), (.known cfg.cpol, .known (sentBit cfg w k))])

/-- The driver sees one call for each GPIO micro-action: `configure_direction(pin, output=true)` for a direction and `write_level(pin,
level)` for a level, on the pin of the line that the micro-action names; the other micro-actions make no call (R60). -/
def Obligations.DriverCallsNameOnePin : Prop :=
  ∀ cfg : Cfg,
    (pinOf cfg .clk = cfg.clkPin ∧ pinOf cfg .data = cfg.dataPin ∧ pinOf cfg .cs = cfg.csPin) ∧
    (∀ p, driverCall cfg (.gpioDir p) = some (.configureDirection (pinOf cfg p) true) ∧
      actLine (.gpioDir p) = some p) ∧
    (∀ p l, driverCall cfg (.gpioWrite p l) = some (.writeLevel (pinOf cfg p) l) ∧ actLine (.gpioWrite p l) = some p) ∧
    (∀ a, actLine a = none ↔ driverCall cfg a = none) ∧
    (∀ a pin out, driverCall cfg a = some (.configureDirection pin out) → out = true ∧ pin ∈ pinsUsed cfg) ∧
    (∀ a pin l, driverCall cfg a = some (.writeLevel pin l) → pin ∈ pinsUsed cfg)

/-! ### Completed commands -/

/-- A completed TRANSFER sends the frame of its word and nothing else, with status OK; `CR`, `FTW` and `begun` stay, the data line keeps
the last bit sent (R126, R130). The reference observer has then emitted the word and the device has not yet taken it, which is the model's
choice of when it does (assumption 5). -/
def Obligations.TransferCompletes : Prop :=
  ∀ (s : State) (w : Word), AtRest s → NoFailure s →
    ∃ t u, exec (.transfer w.toNat) s = .next t ∧ Host.Core.run Sys2Proof.core 50 t = .next u ∧
      u.trace = s.trace ++ frameEvents s.cfg w ++ [.status .ok] ∧ u.rx = [.word w] ∧ u.acts = [] ∧ u.fault = none ∧
      u.cr = s.cr ∧ u.ftw0 = s.ftw0 ∧ u.ftw1 = s.ftw1 ∧ u.begun = s.begun ∧ u.dev = s.dev ∧ u.dirs = s.dirs ∧
      u.pins = { clk := .known s.cfg.cpol, data := .known (sentBit s.cfg w 15), cs := .known true }

/-- A completed RESET sends exactly two words, the register with `RESET` set and then clear, with the settling delay strictly
between them, and leaves every other bit of `CR` as it was (R153, R154). That the device's control register is then `CR` (R46) is read
through the reference observer, under the premises of R250 and R258 (assumptions 8, 10 and 13); that it is so where no BEGIN has run is
the model's choice (assumption 24). The count of steps is the model's (assumptions 5 and 12). -/
def Obligations.ResetCompletes : Prop :=
  ∀ s : State, AtRest s → NoFailure s →
    ∃ t u, exec .resetCmd s = .next t ∧ Host.Core.run Sys2Proof.core 107 t = .next u ∧
      CompletedWith s u (frameEvents s.cfg (s.cr ||| maskReset s.cfg) ++ [.delay .word, .delay .settle]
        ++ frameEvents s.cfg (s.cr &&& ~~~ maskReset s.cfg) ++ [.delay .word, .status .ok]) ∧
      u.cr = s.cr &&& ~~~ maskReset s.cfg ∧ u.ftw0 = s.ftw0 ∧ u.ftw1 = s.ftw1 ∧ u.begun = s.begun ∧
      (DeviceDefined s → u.dev.ctrl = u.cr)

/-- A completed BEGIN sends `B28`, `B28 | RESET`, `B28`, and leaves `CR = B28` and `begun` true, whatever `CR` was; the shadow
registers stay (R156, R252). At the device, read through the reference observer, the control register is `CR` (R46) and a register write
has declared write mode, under the premises of R250 and R258 (assumptions 8, 10 and 13). The count of steps is the model's (assumptions 5
and 12). -/
def Obligations.BeginCompletes : Prop :=
  ∀ s : State, AtRest s → NoFailure s →
    ∃ t u, exec .beginCmd s = .next t ∧ Host.Core.run Sys2Proof.core 161 t = .next u ∧
      CompletedWith s u (frameEvents s.cfg (maskB28 s.cfg) ++ [.delay .word]
        ++ frameEvents s.cfg (maskB28 s.cfg ||| maskReset s.cfg) ++ [.delay .word, .delay .settle]
        ++ frameEvents s.cfg (maskB28 s.cfg) ++ [.delay .word, .status .ok]) ∧
      u.cr = maskB28 s.cfg ∧ u.ftw0 = s.ftw0 ∧ u.ftw1 = s.ftw1 ∧ u.begun = true ∧
      (s.early = false → timingMet s.cfg s.dev = true → u.dev.ctrl = u.cr ∧ u.dev.latch = .declared)

/-- A completed SET_MODE sends the one word `(CR & ~MODE_MASK) | MODE_PATTERN[mode]`, also when it is the same as before, and leaves it in
`CR` (R162). Read through the reference observer, the device's control register is then `CR` (R46), under the premises of R250 and R258
(assumptions 8, 10 and 13). The count of steps is the model's (assumptions 5 and 12). -/
def Obligations.SetModeCompletes : Prop :=
  ∀ (s : State) (mode : BitVec 3) (pattern : Word), AtRest s → NoFailure s → modePattern s.cfg mode = some pattern →
    ∃ t u, exec (.setMode mode) s = .next t ∧ Host.Core.run Sys2Proof.core 53 t = .next u ∧
      CompletedWith s u (frameEvents s.cfg ((s.cr &&& ~~~ s.cfg.modeMask) ||| pattern) ++ [.delay .word, .status .ok]) ∧
      u.cr = (s.cr &&& ~~~ s.cfg.modeMask) ||| pattern ∧ u.ftw0 = s.ftw0 ∧ u.ftw1 = s.ftw1 ∧ u.begun = s.begun ∧
      (DeviceDefined s → s.begun = true → u.dev.ctrl = u.cr)

/-- A completed SET_ACTIVE_FREQUENCY sends the register with `FSELECT` set or cleared and leaves it in `CR`; the shadow registers
stay (R165). Read through the reference observer, the device's control register is then `CR` (R46), under the premises of R250 and R258
(assumptions 8, 10 and 13). The count of steps is the model's (assumptions 5 and 12). -/
def Obligations.SetActiveFrequencyCompletes : Prop :=
  ∀ (s : State) (bank : Bank), AtRest s → NoFailure s →
    ∃ t u, exec (.setActiveFrequency (if bank = .bank1 then 1 else 0)) s = .next t ∧
      Host.Core.run Sys2Proof.core 53 t = .next u ∧
      CompletedWith s u (frameEvents s.cfg (withActiveBank s.cfg s.cr bank) ++ [.delay .word, .status .ok]) ∧
      u.cr = withActiveBank s.cfg s.cr bank ∧ u.ftw0 = s.ftw0 ∧ u.ftw1 = s.ftw1 ∧ u.begun = s.begun ∧
      (DeviceDefined s → s.begun = true → u.dev.ctrl = u.cr)

/-- A completed SET_FREQUENCY sends exactly three words, control word, LSB word, MSB word, each followed by the inter-word delay,
writes no bit of `CR` and loads only the shadow register of its bank (R175, with its law R176). Where `CR` declares write mode and BEGIN
has run, the device, read through the reference observer, then holds the tuning word in that bank, and if its first word was separated
from the frame before it and broke off no frequency write, the other bank as before (R46, R64), under the premises of R250, R253 and R258
(assumptions 8, 10 and 13). That the device latches the pair also where the control word clears a `RESET` which a TRANSFER has set, with
no settling delay, is the model's choice (assumption 23). The count of steps is the model's (assumptions 5 and 12). -/
def Obligations.SetFrequencyCompletes : Prop :=
  ∀ (s : State) (channel : Int) (bank : Bank) (freq : Rat) (v : TuningWord), AtRest s → NoFailure s →
    checkFrequency s.cfg channel freq = .ok (bank, v) →
    ∃ t u, exec (.setFrequency channel freq) s = .next t ∧ Host.Core.run Sys2Proof.core 157 t = .next u ∧
      CompletedWith s u (frameEvents s.cfg s.cr ++ [.delay .word] ++ frameEvents s.cfg (freqWord s.cfg bank (lsbHalf v))
        ++ [.delay .word] ++ frameEvents s.cfg (freqWord s.cfg bank (msbHalf v)) ++ [.delay .word, .status .ok]) ∧
      u.cr = s.cr ∧ ftwOf bank u = some v ∧ ftwOf (otherBank bank) u = ftwOf (otherBank bank) s ∧ u.begun = s.begun ∧
      (DeviceDefined s → s.begun = true → declaresWriteMode s.cfg s.cr = true →
        u.dev.ctrl = s.cr ∧ devFreq bank u.dev = v ∧
        (s.dev.spaced = true → pendingBank s.dev.latch = none →
          devFreq (otherBank bank) u.dev = devFreq (otherBank bank) s.dev))

/-- Field isolation: the bits of `CR` that each command's micro-actions write, and what they write there, from the register before the
command to the register when they have all been performed (R33). -/
def Obligations.CommandsWriteOnlyTheirFields : Prop :=
  ∀ s t : State, cfgValid s.cfg = true → Accepting s →
    (∀ mode, exec (.setMode mode) s = .next t →
      crAfter t.cr t.acts &&& ~~~ s.cfg.modeMask = s.cr &&& ~~~ s.cfg.modeMask ∧
      ∀ pattern, modePattern s.cfg mode = some pattern → crAfter t.cr t.acts &&& s.cfg.modeMask = pattern) ∧
    (∀ channel, exec (.setActiveFrequency channel) s = .next t →
      crAfter t.cr t.acts &&& ~~~ maskFselect s.cfg = s.cr &&& ~~~ maskFselect s.cfg ∧
      (channel = 0 → hasBits (crAfter t.cr t.acts) (maskFselect s.cfg) = false) ∧
      (channel = 1 → hasBits (crAfter t.cr t.acts) (maskFselect s.cfg) = true)) ∧
    (exec .resetCmd s = .next t →
      crAfter t.cr t.acts &&& ~~~ maskReset s.cfg = s.cr &&& ~~~ maskReset s.cfg ∧
      hasBits (crAfter t.cr t.acts) (maskReset s.cfg) = false ∧
      Act.setCr (s.cr ||| maskReset s.cfg) ∈ t.acts) ∧
    (exec .beginCmd s = .next t → crAfter t.cr t.acts = maskB28 s.cfg) ∧
    (∀ channel freq v, exec (.setFrequency channel freq) s = .next t → Act.setCr v ∉ t.acts) ∧
    (∀ word v, exec (.transfer word) s = .next t → Act.setCr v ∉ t.acts)

/-- The least duration of each command, which is the sum of its delays (R260). -/
def Obligations.LeastDurationIsTheDelays : Prop :=
  ∀ (cfg : Cfg) (w r : Word) (bank : Bank) (v : TuningWord),
    leastDuration cfg (frame cfg w) = 0 ∧
    leastDuration cfg (updateActs cfg w) = cfg.tWord ∧
    leastDuration cfg (resetActs cfg r) = 2 * cfg.tWord + cfg.tSettle ∧
    leastDuration cfg (frequencyActs cfg r bank v) = 3 * cfg.tWord ∧
    leastDuration cfg (beginActs cfg) = 3 * cfg.tWord + cfg.tSettle

/-! ### Laws of the register and of the tuning word -/

/-- The SET_MODE law: the result is `(R & ~MASK) | M`, applying it twice is applying it once, and its bits under the mask are exactly one
of the five patterns (R163). -/
def Obligations.SetModeLaw : Prop :=
  ∀ (cfg : Cfg) (r : Word) (mode : BitVec 3) (pattern : Word), cfgValid cfg = true →
    modePattern cfg mode = some pattern →
    withMode cfg r pattern = (r &&& ~~~ cfg.modeMask) ||| pattern ∧
    withMode cfg (withMode cfg r pattern) pattern = withMode cfg r pattern ∧
    ∀ other otherPattern, modePattern cfg other = some otherPattern →
      (withMode cfg r pattern &&& cfg.modeMask = otherPattern ↔ other = mode)

/-- The SET_ACTIVE_FREQUENCY law: 1 and then 0 leaves `FSELECT` clear and every other bit as before the pair, and gives back the register
exactly when `FSELECT` was clear (R166). -/
def Obligations.SetActiveFrequencyPairLaw : Prop :=
  ∀ (cfg : Cfg) (r : Word), cfgValid cfg = true →
    let pair := withActiveBank cfg (withActiveBank cfg r .bank1) .bank0
    hasBits pair (maskFselect cfg) = false ∧ pair &&& ~~~ maskFselect cfg = r &&& ~~~ maskFselect cfg ∧
    (pair = r ↔ hasBits r (maskFselect cfg) = false)

/-- The two halves are `T & 0x3FFF` and `(T >> 14) & 0x3FFF`, zero-extended under the tag (R171). -/
def Obligations.HalvesOfATuningWord : Prop :=
  ∀ (cfg : Cfg) (bank : Bank) (t : TuningWord),
    (lsbHalf t).toNat = t.toNat &&& 0x3FFF ∧ (msbHalf t).toNat = (t.toNat >>> 14) &&& 0x3FFF ∧
    (freqWord cfg bank (lsbHalf t)).toNat = (freqTag cfg bank).toNat <<< 14 ||| (t.toNat &&& 0x3FFF) ∧
    (freqWord cfg bank (msbHalf t)).toNat = (freqTag cfg bank).toNat <<< 14 ||| ((t.toNat >>> 14) &&& 0x3FFF)

/-- The round-trip law: the payloads of the two words, reassembled, are the tuning word (R172). -/
def Obligations.HalvesReassemble : Prop :=
  ∀ (cfg : Cfg) (bank : Bank) (t : TuningWord),
    (((freqWord cfg bank (msbHalf t)).toNat &&& 0x3FFF) <<< 14) ||| ((freqWord cfg bank (lsbHalf t)).toNat &&& 0x3FFF) =
      t.toNat ∧
    joinHalves (msbHalf t) (lsbHalf t) = t

/-- The default rounding: the candidate is a nearest integer to the exact quotient `freq · 2^28 / MCLK_HZ`, and on an exact tie the even
one (R170, R173). -/
def Obligations.CandidateIsTheNearestInteger : Prop :=
  ∀ (cfg : Cfg) (freq : Rat), cfgValid cfg = true → cfg.rounding = .nearestTiesEven → 0 ≤ freq →
    |(tuningCandidate cfg freq : ℚ) - freq * 2 ^ 28 / cfg.mclkHz| ≤ 1 / 2 ∧
    (|(tuningCandidate cfg freq : ℚ) - freq * 2 ^ 28 / cfg.mclkHz| = 1 / 2 → Even (tuningCandidate cfg freq))

/-- Under the default rounding the candidate grows with the frequency, is 0 at 0, and overflows exactly from `x = 2^28 - 1/2` on; at 25 MHz
1000 Hz gives 10737 (R174). -/
def Obligations.CandidateIsMonotone : Prop :=
  (∀ (cfg : Cfg) (f g : Rat), cfgValid cfg = true → cfg.rounding = .nearestTiesEven → 0 ≤ f →
    (f ≤ g → tuningCandidate cfg f ≤ tuningCandidate cfg g) ∧ tuningCandidate cfg 0 = 0 ∧
    (2 ^ 28 ≤ tuningCandidate cfg f ↔ (2 ^ 28 - 1 / 2 : ℚ) ≤ f * 2 ^ 28 / cfg.mclkHz)) ∧
  tuningCandidate defaultCfg 1000 = 10737

/-! ### The device, through the words it receives -/

/-- A control word whose effect the spec states: the device's control register becomes the word (R46), also straight after a TRANSFER when
a controller command sends it (R257), under the premises of R250, R253 and R258. That it is so also where the device has had no RESET
since its power-up (assumption 24), and where a controller command sends the word after an aborted command and a new construction
(assumption 13), is the model's choice. The other clauses are the model's reading: what `B28`, `HLB` and `RESET` do to write mode and when
the frequency registers stay (assumption 8), that a word which clears, with no settling delay, a `RESET` that a TRANSFER has set declares
write mode as any other (assumption 23), that the phase registers stay with the frequency registers (assumption 16), and the marks of the
premises (assumptions 10 and 13). -/
def Obligations.ControlWordReachesTheDevice : Prop :=
  ∀ (s : State) (fields : BitVec 14), s.early = false → timingMet s.cfg s.dev = true →
    (s.dev.spaced = true ∨ sentByController s = true) → hasBits (ctrlWord fields) (reservedMask s.cfg) = false →
    ∃ t, exec (.dwCtrl fields) s = .next t ∧ t.dev.ctrl = ctrlWord fields ∧
      t.dev.latch = (if declaresWriteMode s.cfg (ctrlWord fields) then .declared else .closed) ∧
      (s.dev.spaced = true → hasBits (ctrlWord fields) (maskReset s.cfg) = false → pendingBank s.dev.latch = none →
        t.dev.freq0 = s.dev.freq0 ∧ t.dev.freq1 = s.dev.freq1 ∧ t.dev.phase0 = s.dev.phase0 ∧ t.dev.phase1 = s.dev.phase1)

/-- After a register write that declares write mode, the LSB word of either bank is held and changes no register (R64, R88), under the
premises of R250, R253 and R258 (assumptions 8, 10 and 13). That it is so also where no settling delay has passed since a `RESET` which a
TRANSFER had set (assumption 23), and where the device has had no RESET since its power-up (assumption 24), is the model's choice. -/
def Obligations.LsbWordIsHeld : Prop :=
  ∀ (s : State) (half : Half), s.early = false → timingMet s.cfg s.dev = true → s.dev.spaced = true →
    s.dev.latch = .declared →
    exec (.dwFreq0Lsb half) s = .next { s with dev := { s.dev with latch := .low .bank0 half, spaced := false } } ∧
    exec (.dwFreq1Lsb half) s = .next { s with dev := { s.dev with latch := .low .bank1 half, spaced := false } }

/-- After the LSB word of a bank, its MSB word latches the full 28-bit word in that bank's register (R64, R88), under the premises of
R250, R253 and R258 (assumptions 8, 10 and 13). That write mode must then be declared again (assumption 8), and that the word is latched
also where no settling delay has passed since a `RESET` which a TRANSFER had set (assumption 23) or where the device has had no RESET
since its power-up (assumption 24), is the model's choice. -/
def Obligations.MsbWordLatchesTheFullWord : Prop :=
  ∀ (s : State) (lsb msb : Half), s.early = false → timingMet s.cfg s.dev = true → s.dev.spaced = true →
    (s.dev.latch = .low .bank0 lsb →
      exec (.dwFreq0Msb msb) s =
        .next { s with dev := { s.dev with freq0 := msb ++ lsb, latch := .closed, spaced := false } }) ∧
    (s.dev.latch = .low .bank1 lsb →
      exec (.dwFreq1Msb msb) s =
        .next { s with dev := { s.dev with freq1 := msb ++ lsb, latch := .closed, spaced := false } })

/-- Whatever a received word does, it moves the place in the sequence, which R90 says decides between first and second half. How it moves
is the model's reading: a control word and a second half leave no half pending, and a first half leaves its bank pending, whatever its
effect (assumption 8) and over a pending half of the other bank (assumption 22). The durations the device requires stay (R258), and the
next frame is not separated until a delay has passed (R253; assumption 13). -/
def Obligations.ReceivedWordsMoveThePlace : Prop :=
  ∀ (s : State) (fields : BitVec 14) (half : Half),
    let place (i : Instr) (pending : Option Bank) : Prop :=
      ∃ t, exec i s = .next t ∧ pendingBank t.dev.latch = pending ∧ t.dev.setupTime = s.dev.setupTime ∧
        t.dev.settleTime = s.dev.settleTime ∧ t.dev.spaced = false
    place (.dwCtrl fields) none ∧ place (.dwFreq0Lsb half) (some .bank0) ∧ place (.dwFreq0Msb half) none ∧
      place (.dwFreq1Lsb half) (some .bank1) ∧ place (.dwFreq1Msb half) none

/-- Whatever the device receives, it takes it, and nothing changes but the device and the count of free values: every device word, and in
a step every emission, a word of no format, a malformed frame and an aborted one among them. The block never reads the device (R46). That the step which takes an emission performs
nothing of the block is the model's choice (assumption 5). -/
def Obligations.ReceivedWordsLeaveTheBlock : Prop :=
  (∀ (s : State) (i : Instr) (w : Word), encode s.cfg i = .word w →
    ∃ t, exec i s = .next t ∧ { t with dev := s.dev, free := s.free } = s) ∧
  (∀ (s : State) (e : Emission) (rest : List Emission), s.fault = none → s.rx = e :: rest →
    ∃ t, step s = .next t ∧ { t with dev := s.dev, free := s.free } = { s with rx := rest })

/-! ### Invariants -/

/-- HEADLINE. Every step keeps the invariant: the reserved bits of `CR` stay zero, every command ends with `RESET` clear, the clock idle and
the select line high, `pc` stays within the micro-actions, and a FAILED instance knows no line (R34, R44, R125, R206). -/
def Obligations.EveryStepKeepsTheInvariant : Prop :=
  ∀ s t : State, Inv s → step s = .next t → Inv t

/-- The invariant holds of every instance that a construction without failure gives, the reset state among them (R241). -/
def Obligations.ConstructedInstancesMeetTheInvariant : Prop :=
  (∀ (cfg : Cfg) (answers : List DriverAnswer) (dev : Device) (free : Nat), cfgValid cfg = true →
    Inv (State.constructed cfg answers dev free)) ∧ Inv State.reset

/-- What the invariant says of an idle instance: no reserved bit and no `RESET` bit in `CR`, and bits 15:14 zero (R34), the clock at its idle
level and the select line high (R125). -/
def Obligations.IdleInstanceIsClean : Prop :=
  ∀ s : State, Inv s → s.fault = none → s.acts = [] →
    hasBits s.cr (reservedMask s.cfg) = false ∧ hasBits s.cr (maskReset s.cfg) = false ∧ wordTag s.cr = 0b00#2 ∧
    s.pins.clk = .known s.cfg.cpol ∧ s.pins.cs = .known true

/-- HEADLINE. No event depends on the shadow registers, on `begun`, or on anything the device holds: two states that agree on the rest take
steps that agree on the rest, the whole observation included (R40, R43, R46). -/
def Obligations.NothingReadsTheShadowState : Prop :=
  ∀ s t : State, blockView s = blockView t →
    (∀ s', step s = .next s' → ∃ t', step t = .next t' ∧ blockView s' = blockView t') ∧
    (∀ f, step s = .fault f → step t = .fault f) ∧ (∀ r, step s = .refused r → step t = .refused r)
end

