-- ==== Sys2Proof/Laws/Encoding.lean ====
section
/-! SUPPORT. The fields of a device word: tag and payload of a word that was put together from them. -/

namespace Sys2Proof

/-- The value of a word put together from a tag and a payload. -/
theorem tagged_toNat (t : Tag) (p : BitVec 14) : (t ++ p : BitVec (2 + 14)).toNat = t.toNat * 2 ^ 14 + p.toNat := by
  have hp : p.toNat < 2 ^ 14 := p.isLt
  rw [BitVec.toNat_append, ← Nat.shiftLeft_add_eq_or_of_lt hp, Nat.shiftLeft_eq]

/-- The tag of a word put together from a tag and a payload. -/
theorem wordTag_tagged (t : Tag) (p : BitVec 14) : wordTag (t ++ p) = t := by
  have hp : p.toNat < 2 ^ 14 := p.isLt
  have ht : t.toNat < 2 ^ 2 := t.isLt
  apply BitVec.eq_of_toNat_eq
  rw [wordTag, BitVec.extractLsb'_toNat, tagged_toNat, Nat.shiftRight_eq_div_pow]
  omega

/-- The payload of a word put together from a tag and a payload. -/
theorem wordPayload_tagged (t : Tag) (p : BitVec 14) : wordPayload (t ++ p) = p := by
  have hp : p.toNat < 2 ^ 14 := p.isLt
  apply BitVec.eq_of_toNat_eq
  rw [wordPayload, BitVec.extractLsb'_toNat, tagged_toNat, Nat.shiftRight_eq_div_pow]
  omega

@[simp] theorem wordTag_ctrlWord (f : BitVec 14) : wordTag (Machine.ctrlWord f) = 0#2 := wordTag_tagged _ _
@[simp] theorem wordPayload_ctrlWord (f : BitVec 14) : wordPayload (Machine.ctrlWord f) = f := wordPayload_tagged _ _
@[simp] theorem wordTag_freqWord (cfg : Cfg) (c : Bank) (h : Half) :
    wordTag (Machine.freqWord cfg c h) = Machine.freqTag cfg c := wordTag_tagged _ _
@[simp] theorem wordPayload_freqWord (cfg : Cfg) (c : Bank) (h : Half) :
    wordPayload (Machine.freqWord cfg c h) = h := wordPayload_tagged _ _

end Sys2Proof
end

