-- ==== Sys2Proof/Laws/Flags.lean ====
section
/-! SUPPORT. What a valid configuration says of the masks of the Control Register. -/

namespace Sys2Proof.Machine

/-- The parts of `Valid(Cfg)` (R242), as propositions. -/
structure ValidCfg (cfg : Cfg) : Prop where
  pins : pinsDistinct cfg = true
  clock : 0 < cfg.mclkHz
  inRange : ∀ p ∈ layoutPositions cfg.layout, p < 14
  distinct : (layoutPositions cfg.layout).Nodup
  patternsDistinct : (patternList cfg.patterns).Nodup
  patternsWithin : ∀ p ∈ patternList cfg.patterns, p &&& ~~~ cfg.modeMask = 0#16
  maskNoField : cfg.modeMask &&& nonModeFields cfg = 0#16
  maskNoReserved : cfg.modeMask &&& reservedMask cfg = 0#16
  tags : tagsValid cfg = true

theorem ValidCfg.of_cfgValid {cfg : Cfg} (h : cfgValid cfg = true) : ValidCfg cfg := by
  simp only [cfgValid, modesValid, layoutValid, Bool.and_eq_true, decide_eq_true_eq, List.all_eq_true, beq_iff_eq] at h
  obtain ⟨⟨⟨⟨⟨⟨hp, hc⟩, _⟩, _⟩, h1, h2⟩, ⟨⟨h3, h4⟩, h5⟩, h6⟩, h7⟩ := h
  exact ⟨hp, hc, h1, h2, h3, h4, h5, h6, h7⟩

/-- No bit of a mask set, as an equation. -/
theorem hasBits_eq_false {r mask : Word} : hasBits r mask = false ↔ r &&& mask = 0#16 := by simp [hasBits]

/-- Two words have no common bit exactly when no position has both. -/
theorem and_eq_zero_iff {a b : Word} : a &&& b = 0#16 ↔ ∀ i, (hi : i < 16) → (a[i] && b[i]) = false := by
  constructor
  · intro h i hi
    have := congrArg (fun w : Word => w[i]) h
    simpa using this
  · intro h
    ext i hi
    simpa using h i hi

/-- The bit of a field mask. -/
theorem fieldMask_getElem (p i : Nat) (hi : i < 16) : (fieldMask p)[i] = decide (i = p) := by
  rw [fieldMask, BitVec.getElem_shiftLeft, Bool.eq_iff_iff]
  simp
  omega

/-- A field mask within the word is not zero. -/
theorem fieldMask_ne_zero {p : Nat} (hp : p < 16) : fieldMask p ≠ 0#16 := by
  intro h
  have := congrArg (fun w : Word => w[p]) h
  simp [fieldMask_getElem] at this

/-- Field masks at distinct positions have no common bit. -/
theorem fieldMask_and_fieldMask {p q : Nat} (h : p ≠ q) : fieldMask p &&& fieldMask q = 0#16 := by
  rw [and_eq_zero_iff]
  intro i hi
  simp only [fieldMask_getElem, Bool.and_eq_false_imp, decide_eq_true_eq, decide_eq_false_iff_not]
  omega

/-- Setting bits of a field and clearing others are bitwise. -/
theorem setBits_getElem (r mask : Word) (i : Nat) (hi : i < 16) : (setBits r mask)[i] = (r[i] || mask[i]) := by
  simp [setBits]

theorem clearBits_getElem (r mask : Word) (i : Nat) (hi : i < 16) : (clearBits r mask)[i] = (r[i] && !mask[i]) := by
  simp [clearBits]

end Sys2Proof.Machine
end

