-- ==== Sys2Proof/Laws/State.lean ====
section
/-! SUPPORT. One lemma per field per update of the state, so that no later proof unfolds a record update. -/

namespace Sys2Proof.Machine

@[simp] theorem emit_cfg (e : Event) (s : State) : (emit e s).cfg = s.cfg := rfl
@[simp] theorem emit_cr (e : Event) (s : State) : (emit e s).cr = s.cr := rfl
@[simp] theorem emit_ftw0 (e : Event) (s : State) : (emit e s).ftw0 = s.ftw0 := rfl
@[simp] theorem emit_ftw1 (e : Event) (s : State) : (emit e s).ftw1 = s.ftw1 := rfl
@[simp] theorem emit_pins (e : Event) (s : State) : (emit e s).pins = s.pins := rfl
@[simp] theorem emit_dirs (e : Event) (s : State) : (emit e s).dirs = s.dirs := rfl
@[simp] theorem emit_begun (e : Event) (s : State) : (emit e s).begun = s.begun := rfl
@[simp] theorem emit_acts (e : Event) (s : State) : (emit e s).acts = s.acts := rfl
@[simp] theorem emit_pc (e : Event) (s : State) : (emit e s).pc = s.pc := rfl
@[simp] theorem emit_fault (e : Event) (s : State) : (emit e s).fault = s.fault := rfl
@[simp] theorem emit_port (e : Event) (s : State) : (emit e s).port = s.port := rfl
@[simp] theorem emit_answers (e : Event) (s : State) : (emit e s).answers = s.answers := rfl
@[simp] theorem emit_trace (e : Event) (s : State) : (emit e s).trace = s.trace ++ [e] := rfl
@[simp] theorem emit_obs (e : Event) (s : State) : (emit e s).obs = (observe s.cfg (Config.freeBit s.free) s.obs e).1 := rfl
@[simp] theorem emit_rx (e : Event) (s : State) : (emit e s).rx = s.rx ++ (observe s.cfg (Config.freeBit s.free) s.obs e).2.toList := rfl
@[simp] theorem emit_dev (e : Event) (s : State) : (emit e s).dev = s.dev := rfl
@[simp] theorem emit_early (e : Event) (s : State) : (emit e s).early = s.early := rfl
@[simp] theorem emit_free (e : Event) (s : State) : (emit e s).free = if samplesUnknown s.cfg s.obs e then s.free + 1 else s.free := rfl

@[simp] theorem loseDevice_cfg (s : State) : (loseDevice s).cfg = s.cfg := rfl
@[simp] theorem loseDevice_cr (s : State) : (loseDevice s).cr = s.cr := rfl
@[simp] theorem loseDevice_ftw0 (s : State) : (loseDevice s).ftw0 = s.ftw0 := rfl
@[simp] theorem loseDevice_ftw1 (s : State) : (loseDevice s).ftw1 = s.ftw1 := rfl
@[simp] theorem loseDevice_pins (s : State) : (loseDevice s).pins = s.pins := rfl
@[simp] theorem loseDevice_dirs (s : State) : (loseDevice s).dirs = s.dirs := rfl
@[simp] theorem loseDevice_begun (s : State) : (loseDevice s).begun = s.begun := rfl
@[simp] theorem loseDevice_acts (s : State) : (loseDevice s).acts = s.acts := rfl
@[simp] theorem loseDevice_pc (s : State) : (loseDevice s).pc = s.pc := rfl
@[simp] theorem loseDevice_fault (s : State) : (loseDevice s).fault = s.fault := rfl
@[simp] theorem loseDevice_port (s : State) : (loseDevice s).port = s.port := rfl
@[simp] theorem loseDevice_answers (s : State) : (loseDevice s).answers = s.answers := rfl
@[simp] theorem loseDevice_trace (s : State) : (loseDevice s).trace = s.trace := rfl
@[simp] theorem loseDevice_obs (s : State) : (loseDevice s).obs = s.obs := rfl
@[simp] theorem loseDevice_rx (s : State) : (loseDevice s).rx = s.rx := rfl
@[simp] theorem loseDevice_dev (s : State) : (loseDevice s).dev = anyDevice s.free s.dev := rfl
@[simp] theorem loseDevice_early (s : State) : (loseDevice s).early = s.early := rfl
@[simp] theorem loseDevice_free (s : State) : (loseDevice s).free = s.free + 1 := rfl

@[simp] theorem takeAnswer_cfg (s : State) : (takeAnswer s).cfg = s.cfg := rfl
@[simp] theorem takeAnswer_cr (s : State) : (takeAnswer s).cr = s.cr := rfl
@[simp] theorem takeAnswer_ftw0 (s : State) : (takeAnswer s).ftw0 = s.ftw0 := rfl
@[simp] theorem takeAnswer_ftw1 (s : State) : (takeAnswer s).ftw1 = s.ftw1 := rfl
@[simp] theorem takeAnswer_pins (s : State) : (takeAnswer s).pins = s.pins := rfl
@[simp] theorem takeAnswer_dirs (s : State) : (takeAnswer s).dirs = s.dirs := rfl
@[simp] theorem takeAnswer_begun (s : State) : (takeAnswer s).begun = s.begun := rfl
@[simp] theorem takeAnswer_acts (s : State) : (takeAnswer s).acts = s.acts := rfl
@[simp] theorem takeAnswer_pc (s : State) : (takeAnswer s).pc = s.pc := rfl
@[simp] theorem takeAnswer_fault (s : State) : (takeAnswer s).fault = s.fault := rfl
@[simp] theorem takeAnswer_port (s : State) : (takeAnswer s).port = s.port := rfl
@[simp] theorem takeAnswer_answers (s : State) : (takeAnswer s).answers = s.answers.tail := rfl
@[simp] theorem takeAnswer_trace (s : State) : (takeAnswer s).trace = s.trace := rfl
@[simp] theorem takeAnswer_obs (s : State) : (takeAnswer s).obs = s.obs := rfl
@[simp] theorem takeAnswer_rx (s : State) : (takeAnswer s).rx = s.rx := rfl
@[simp] theorem takeAnswer_dev (s : State) : (takeAnswer s).dev = s.dev := rfl
@[simp] theorem takeAnswer_early (s : State) : (takeAnswer s).early = s.early := rfl
@[simp] theorem takeAnswer_free (s : State) : (takeAnswer s).free = s.free := rfl

@[simp] theorem spaceDevice_cfg (k : DelayKind) (s : State) : (spaceDevice k s).cfg = s.cfg := by cases k <;> rfl
@[simp] theorem spaceDevice_cr (k : DelayKind) (s : State) : (spaceDevice k s).cr = s.cr := by cases k <;> rfl
@[simp] theorem spaceDevice_ftw0 (k : DelayKind) (s : State) : (spaceDevice k s).ftw0 = s.ftw0 := by cases k <;> rfl
@[simp] theorem spaceDevice_ftw1 (k : DelayKind) (s : State) : (spaceDevice k s).ftw1 = s.ftw1 := by cases k <;> rfl
@[simp] theorem spaceDevice_pins (k : DelayKind) (s : State) : (spaceDevice k s).pins = s.pins := by cases k <;> rfl
@[simp] theorem spaceDevice_dirs (k : DelayKind) (s : State) : (spaceDevice k s).dirs = s.dirs := by cases k <;> rfl
@[simp] theorem spaceDevice_begun (k : DelayKind) (s : State) : (spaceDevice k s).begun = s.begun := by cases k <;> rfl
@[simp] theorem spaceDevice_acts (k : DelayKind) (s : State) : (spaceDevice k s).acts = s.acts := by cases k <;> rfl
@[simp] theorem spaceDevice_pc (k : DelayKind) (s : State) : (spaceDevice k s).pc = s.pc := by cases k <;> rfl
@[simp] theorem spaceDevice_fault (k : DelayKind) (s : State) : (spaceDevice k s).fault = s.fault := by cases k <;> rfl
@[simp] theorem spaceDevice_port (k : DelayKind) (s : State) : (spaceDevice k s).port = s.port := by cases k <;> rfl
@[simp] theorem spaceDevice_answers (k : DelayKind) (s : State) : (spaceDevice k s).answers = s.answers := by cases k <;> rfl
@[simp] theorem spaceDevice_trace (k : DelayKind) (s : State) : (spaceDevice k s).trace = s.trace := by cases k <;> rfl
@[simp] theorem spaceDevice_obs (k : DelayKind) (s : State) : (spaceDevice k s).obs = s.obs := by cases k <;> rfl
@[simp] theorem spaceDevice_rx (k : DelayKind) (s : State) : (spaceDevice k s).rx = s.rx := by cases k <;> rfl
@[simp] theorem spaceDevice_early (k : DelayKind) (s : State) : (spaceDevice k s).early = s.early := by cases k <;> rfl
@[simp] theorem spaceDevice_free (k : DelayKind) (s : State) : (spaceDevice k s).free = s.free := by cases k <;> rfl
@[simp] theorem spaceDevice_word_dev (s : State) : (spaceDevice .word s).dev = { s.dev with spaced := true } := rfl
@[simp] theorem spaceDevice_settle (s : State) : spaceDevice .settle s = s := rfl

@[simp] theorem loadActs_cfg (f : Bool) (as : List Act) (s : State) : (loadActs f as s).cfg = s.cfg := rfl
@[simp] theorem loadActs_cr (f : Bool) (as : List Act) (s : State) : (loadActs f as s).cr = s.cr := rfl
@[simp] theorem loadActs_ftw0 (f : Bool) (as : List Act) (s : State) : (loadActs f as s).ftw0 = s.ftw0 := rfl
@[simp] theorem loadActs_ftw1 (f : Bool) (as : List Act) (s : State) : (loadActs f as s).ftw1 = s.ftw1 := rfl
@[simp] theorem loadActs_pins (f : Bool) (as : List Act) (s : State) : (loadActs f as s).pins = s.pins := rfl
@[simp] theorem loadActs_dirs (f : Bool) (as : List Act) (s : State) : (loadActs f as s).dirs = s.dirs := rfl
@[simp] theorem loadActs_begun (f : Bool) (as : List Act) (s : State) : (loadActs f as s).begun = s.begun := rfl
@[simp] theorem loadActs_acts (f : Bool) (as : List Act) (s : State) : (loadActs f as s).acts = as := rfl
@[simp] theorem loadActs_pc (f : Bool) (as : List Act) (s : State) : (loadActs f as s).pc = 0 := rfl
@[simp] theorem loadActs_fault (f : Bool) (as : List Act) (s : State) : (loadActs f as s).fault = s.fault := rfl
@[simp] theorem loadActs_port (f : Bool) (as : List Act) (s : State) : (loadActs f as s).port = s.port := rfl
@[simp] theorem loadActs_answers (f : Bool) (as : List Act) (s : State) : (loadActs f as s).answers = s.answers := rfl
@[simp] theorem loadActs_trace (f : Bool) (as : List Act) (s : State) : (loadActs f as s).trace = s.trace := rfl
@[simp] theorem loadActs_obs (f : Bool) (as : List Act) (s : State) : (loadActs f as s).obs = s.obs := rfl
@[simp] theorem loadActs_rx (f : Bool) (as : List Act) (s : State) : (loadActs f as s).rx = s.rx := rfl
@[simp] theorem loadActs_dev (f : Bool) (as : List Act) (s : State) : (loadActs f as s).dev = s.dev := rfl
@[simp] theorem loadActs_early (f : Bool) (as : List Act) (s : State) : (loadActs f as s).early = (s.early || (f && !s.begun)) := rfl
@[simp] theorem loadActs_free (f : Bool) (as : List Act) (s : State) : (loadActs f as s).free = s.free := rfl

@[simp] theorem completeCommand_cfg (s : State) : (completeCommand s).cfg = s.cfg := rfl
@[simp] theorem completeCommand_cr (s : State) : (completeCommand s).cr = s.cr := rfl
@[simp] theorem completeCommand_ftw0 (s : State) : (completeCommand s).ftw0 = s.ftw0 := rfl
@[simp] theorem completeCommand_ftw1 (s : State) : (completeCommand s).ftw1 = s.ftw1 := rfl
@[simp] theorem completeCommand_pins (s : State) : (completeCommand s).pins = s.pins := rfl
@[simp] theorem completeCommand_dirs (s : State) : (completeCommand s).dirs = s.dirs := rfl
@[simp] theorem completeCommand_begun (s : State) : (completeCommand s).begun = s.begun := rfl
@[simp] theorem completeCommand_acts (s : State) : (completeCommand s).acts = [] := rfl
@[simp] theorem completeCommand_pc (s : State) : (completeCommand s).pc = 0 := rfl
@[simp] theorem completeCommand_fault (s : State) : (completeCommand s).fault = s.fault := rfl
@[simp] theorem completeCommand_port (s : State) : (completeCommand s).port = s.port := rfl
@[simp] theorem completeCommand_answers (s : State) : (completeCommand s).answers = s.answers := rfl
@[simp] theorem completeCommand_trace (s : State) : (completeCommand s).trace = s.trace ++ [.status .ok] := rfl
@[simp] theorem completeCommand_dev (s : State) : (completeCommand s).dev = s.dev := rfl
@[simp] theorem completeCommand_early (s : State) : (completeCommand s).early = s.early := rfl

@[simp] theorem raiseInvalid_cfg (c : Cause) (s : State) : (raiseInvalid c s).cfg = s.cfg := rfl
@[simp] theorem raiseInvalid_cr (c : Cause) (s : State) : (raiseInvalid c s).cr = s.cr := rfl
@[simp] theorem raiseInvalid_ftw0 (c : Cause) (s : State) : (raiseInvalid c s).ftw0 = s.ftw0 := rfl
@[simp] theorem raiseInvalid_ftw1 (c : Cause) (s : State) : (raiseInvalid c s).ftw1 = s.ftw1 := rfl
@[simp] theorem raiseInvalid_pins (c : Cause) (s : State) : (raiseInvalid c s).pins = s.pins := rfl
@[simp] theorem raiseInvalid_dirs (c : Cause) (s : State) : (raiseInvalid c s).dirs = s.dirs := rfl
@[simp] theorem raiseInvalid_begun (c : Cause) (s : State) : (raiseInvalid c s).begun = s.begun := rfl
@[simp] theorem raiseInvalid_acts (c : Cause) (s : State) : (raiseInvalid c s).acts = s.acts := rfl
@[simp] theorem raiseInvalid_pc (c : Cause) (s : State) : (raiseInvalid c s).pc = s.pc := rfl
@[simp] theorem raiseInvalid_fault (c : Cause) (s : State) : (raiseInvalid c s).fault = s.fault := rfl
@[simp] theorem raiseInvalid_port (c : Cause) (s : State) : (raiseInvalid c s).port = s.port := rfl
@[simp] theorem raiseInvalid_answers (c : Cause) (s : State) : (raiseInvalid c s).answers = s.answers := rfl
@[simp] theorem raiseInvalid_trace (c : Cause) (s : State) : (raiseInvalid c s).trace = s.trace ++ [.status (.invalidArgument c)] := rfl
@[simp] theorem raiseInvalid_dev (c : Cause) (s : State) : (raiseInvalid c s).dev = s.dev := rfl
@[simp] theorem raiseInvalid_early (c : Cause) (s : State) : (raiseInvalid c s).early = s.early := rfl

@[simp] theorem raiseIoFailure_cfg (p : Line) (s : State) : (raiseIoFailure p s).cfg = s.cfg := rfl
@[simp] theorem raiseIoFailure_cr (p : Line) (s : State) : (raiseIoFailure p s).cr = s.cr := rfl
@[simp] theorem raiseIoFailure_ftw0 (p : Line) (s : State) : (raiseIoFailure p s).ftw0 = s.ftw0 := rfl
@[simp] theorem raiseIoFailure_ftw1 (p : Line) (s : State) : (raiseIoFailure p s).ftw1 = s.ftw1 := rfl
@[simp] theorem raiseIoFailure_pins (p : Line) (s : State) : (raiseIoFailure p s).pins = unknownPins := rfl
@[simp] theorem raiseIoFailure_dirs (p : Line) (s : State) : (raiseIoFailure p s).dirs = s.dirs := rfl
@[simp] theorem raiseIoFailure_begun (p : Line) (s : State) : (raiseIoFailure p s).begun = s.begun := rfl
@[simp] theorem raiseIoFailure_acts (p : Line) (s : State) : (raiseIoFailure p s).acts = [] := rfl
@[simp] theorem raiseIoFailure_pc (p : Line) (s : State) : (raiseIoFailure p s).pc = 0 := rfl
@[simp] theorem raiseIoFailure_fault (p : Line) (s : State) : (raiseIoFailure p s).fault = some p := rfl
@[simp] theorem raiseIoFailure_port (p : Line) (s : State) : (raiseIoFailure p s).port = s.port := rfl
@[simp] theorem raiseIoFailure_answers (p : Line) (s : State) : (raiseIoFailure p s).answers = s.answers := rfl
@[simp] theorem raiseIoFailure_trace (p : Line) (s : State) : (raiseIoFailure p s).trace = s.trace ++ [.fail p] ++ [.status (.hardwareIoFailure p)] := rfl
@[simp] theorem raiseIoFailure_dev (p : Line) (s : State) : (raiseIoFailure p s).dev = s.dev := rfl
@[simp] theorem raiseIoFailure_early (p : Line) (s : State) : (raiseIoFailure p s).early = s.early := rfl

@[simp] theorem loseRegisters_cfg (s : State) : (loseRegisters s).cfg = s.cfg := rfl
@[simp] theorem loseRegisters_cr (s : State) : (loseRegisters s).cr = s.cr := rfl
@[simp] theorem loseRegisters_ftw0 (s : State) : (loseRegisters s).ftw0 = s.ftw0 := rfl
@[simp] theorem loseRegisters_ftw1 (s : State) : (loseRegisters s).ftw1 = s.ftw1 := rfl
@[simp] theorem loseRegisters_pins (s : State) : (loseRegisters s).pins = s.pins := rfl
@[simp] theorem loseRegisters_dirs (s : State) : (loseRegisters s).dirs = s.dirs := rfl
@[simp] theorem loseRegisters_begun (s : State) : (loseRegisters s).begun = s.begun := rfl
@[simp] theorem loseRegisters_acts (s : State) : (loseRegisters s).acts = s.acts := rfl
@[simp] theorem loseRegisters_pc (s : State) : (loseRegisters s).pc = s.pc := rfl
@[simp] theorem loseRegisters_fault (s : State) : (loseRegisters s).fault = s.fault := rfl
@[simp] theorem loseRegisters_port (s : State) : (loseRegisters s).port = s.port := rfl
@[simp] theorem loseRegisters_answers (s : State) : (loseRegisters s).answers = s.answers := rfl
@[simp] theorem loseRegisters_trace (s : State) : (loseRegisters s).trace = s.trace := rfl
@[simp] theorem loseRegisters_obs (s : State) : (loseRegisters s).obs = s.obs := rfl
@[simp] theorem loseRegisters_rx (s : State) : (loseRegisters s).rx = s.rx := rfl
@[simp] theorem loseRegisters_dev (s : State) : (loseRegisters s).dev = { anyDevice s.free s.dev with ctrl := s.dev.ctrl } := rfl
@[simp] theorem loseRegisters_early (s : State) : (loseRegisters s).early = s.early := rfl
@[simp] theorem loseRegisters_free (s : State) : (loseRegisters s).free = s.free + 1 := rfl

@[simp] theorem writeCtrl_cfg (w : Word) (s : State) : (writeCtrl w s).cfg = s.cfg := rfl
@[simp] theorem writeCtrl_cr (w : Word) (s : State) : (writeCtrl w s).cr = s.cr := rfl
@[simp] theorem writeCtrl_ftw0 (w : Word) (s : State) : (writeCtrl w s).ftw0 = s.ftw0 := rfl
@[simp] theorem writeCtrl_ftw1 (w : Word) (s : State) : (writeCtrl w s).ftw1 = s.ftw1 := rfl
@[simp] theorem writeCtrl_pins (w : Word) (s : State) : (writeCtrl w s).pins = s.pins := rfl
@[simp] theorem writeCtrl_dirs (w : Word) (s : State) : (writeCtrl w s).dirs = s.dirs := rfl
@[simp] theorem writeCtrl_begun (w : Word) (s : State) : (writeCtrl w s).begun = s.begun := rfl
@[simp] theorem writeCtrl_acts (w : Word) (s : State) : (writeCtrl w s).acts = s.acts := rfl
@[simp] theorem writeCtrl_pc (w : Word) (s : State) : (writeCtrl w s).pc = s.pc := rfl
@[simp] theorem writeCtrl_fault (w : Word) (s : State) : (writeCtrl w s).fault = s.fault := rfl
@[simp] theorem writeCtrl_port (w : Word) (s : State) : (writeCtrl w s).port = s.port := rfl
@[simp] theorem writeCtrl_answers (w : Word) (s : State) : (writeCtrl w s).answers = s.answers := rfl
@[simp] theorem writeCtrl_trace (w : Word) (s : State) : (writeCtrl w s).trace = s.trace := rfl
@[simp] theorem writeCtrl_obs (w : Word) (s : State) : (writeCtrl w s).obs = s.obs := rfl
@[simp] theorem writeCtrl_rx (w : Word) (s : State) : (writeCtrl w s).rx = s.rx := rfl
@[simp] theorem writeCtrl_dev (w : Word) (s : State) : (writeCtrl w s).dev = { s.dev with ctrl := w, latch := if declaresWriteMode s.cfg w then .declared else .closed, spaced := false } := rfl
@[simp] theorem writeCtrl_early (w : Word) (s : State) : (writeCtrl w s).early = s.early := rfl
@[simp] theorem writeCtrl_free (w : Word) (s : State) : (writeCtrl w s).free = s.free := rfl

@[simp] theorem strayHalf_cfg (c : Bank) (s : State) : (strayHalf c s).cfg = s.cfg := rfl
@[simp] theorem strayHalf_cr (c : Bank) (s : State) : (strayHalf c s).cr = s.cr := rfl
@[simp] theorem strayHalf_ftw0 (c : Bank) (s : State) : (strayHalf c s).ftw0 = s.ftw0 := rfl
@[simp] theorem strayHalf_ftw1 (c : Bank) (s : State) : (strayHalf c s).ftw1 = s.ftw1 := rfl
@[simp] theorem strayHalf_pins (c : Bank) (s : State) : (strayHalf c s).pins = s.pins := rfl
@[simp] theorem strayHalf_dirs (c : Bank) (s : State) : (strayHalf c s).dirs = s.dirs := rfl
@[simp] theorem strayHalf_begun (c : Bank) (s : State) : (strayHalf c s).begun = s.begun := rfl
@[simp] theorem strayHalf_acts (c : Bank) (s : State) : (strayHalf c s).acts = s.acts := rfl
@[simp] theorem strayHalf_pc (c : Bank) (s : State) : (strayHalf c s).pc = s.pc := rfl
@[simp] theorem strayHalf_fault (c : Bank) (s : State) : (strayHalf c s).fault = s.fault := rfl
@[simp] theorem strayHalf_port (c : Bank) (s : State) : (strayHalf c s).port = s.port := rfl
@[simp] theorem strayHalf_answers (c : Bank) (s : State) : (strayHalf c s).answers = s.answers := rfl
@[simp] theorem strayHalf_trace (c : Bank) (s : State) : (strayHalf c s).trace = s.trace := rfl
@[simp] theorem strayHalf_obs (c : Bank) (s : State) : (strayHalf c s).obs = s.obs := rfl
@[simp] theorem strayHalf_rx (c : Bank) (s : State) : (strayHalf c s).rx = s.rx := rfl
@[simp] theorem strayHalf_dev (c : Bank) (s : State) : (strayHalf c s).dev = { s.dev with latch := .stray c } := rfl
@[simp] theorem strayHalf_early (c : Bank) (s : State) : (strayHalf c s).early = s.early := rfl
@[simp] theorem strayHalf_free (c : Bank) (s : State) : (strayHalf c s).free = s.free := rfl

@[simp] theorem anyDevice_ctrl (n : Nat) (d : Device) : (anyDevice n d).ctrl = Config.freeCtrl n := rfl
@[simp] theorem anyDevice_freq0 (n : Nat) (d : Device) : (anyDevice n d).freq0 = Config.freeFreq n .bank0 := rfl
@[simp] theorem anyDevice_freq1 (n : Nat) (d : Device) : (anyDevice n d).freq1 = Config.freeFreq n .bank1 := rfl
@[simp] theorem anyDevice_phase0 (n : Nat) (d : Device) : (anyDevice n d).phase0 = Config.freePhase n 0 := rfl
@[simp] theorem anyDevice_phase1 (n : Nat) (d : Device) : (anyDevice n d).phase1 = Config.freePhase n 1 := rfl
@[simp] theorem anyDevice_spaced (n : Nat) (d : Device) : (anyDevice n d).spaced = false := rfl
@[simp] theorem anyDevice_latch (n : Nat) (d : Device) : (anyDevice n d).latch = .closed := rfl
@[simp] theorem anyDevice_setupTime (n : Nat) (d : Device) : (anyDevice n d).setupTime = d.setupTime := rfl
@[simp] theorem anyDevice_settleTime (n : Nat) (d : Device) : (anyDevice n d).settleTime = d.settleTime := rfl

@[simp] theorem setFtw_cfg (c : Bank) (t : TuningWord) (s : State) : (setFtw c t s).cfg = s.cfg := by cases c <;> rfl
@[simp] theorem setFtw_cr (c : Bank) (t : TuningWord) (s : State) : (setFtw c t s).cr = s.cr := by cases c <;> rfl
@[simp] theorem setFtw_pins (c : Bank) (t : TuningWord) (s : State) : (setFtw c t s).pins = s.pins := by cases c <;> rfl
@[simp] theorem setFtw_dirs (c : Bank) (t : TuningWord) (s : State) : (setFtw c t s).dirs = s.dirs := by cases c <;> rfl
@[simp] theorem setFtw_begun (c : Bank) (t : TuningWord) (s : State) : (setFtw c t s).begun = s.begun := by cases c <;> rfl
@[simp] theorem setFtw_acts (c : Bank) (t : TuningWord) (s : State) : (setFtw c t s).acts = s.acts := by cases c <;> rfl
@[simp] theorem setFtw_pc (c : Bank) (t : TuningWord) (s : State) : (setFtw c t s).pc = s.pc := by cases c <;> rfl
@[simp] theorem setFtw_fault (c : Bank) (t : TuningWord) (s : State) : (setFtw c t s).fault = s.fault := by cases c <;> rfl
@[simp] theorem setFtw_port (c : Bank) (t : TuningWord) (s : State) : (setFtw c t s).port = s.port := by cases c <;> rfl
@[simp] theorem setFtw_answers (c : Bank) (t : TuningWord) (s : State) : (setFtw c t s).answers = s.answers := by cases c <;> rfl
@[simp] theorem setFtw_trace (c : Bank) (t : TuningWord) (s : State) : (setFtw c t s).trace = s.trace := by cases c <;> rfl
@[simp] theorem setFtw_obs (c : Bank) (t : TuningWord) (s : State) : (setFtw c t s).obs = s.obs := by cases c <;> rfl
@[simp] theorem setFtw_rx (c : Bank) (t : TuningWord) (s : State) : (setFtw c t s).rx = s.rx := by cases c <;> rfl
@[simp] theorem setFtw_dev (c : Bank) (t : TuningWord) (s : State) : (setFtw c t s).dev = s.dev := by cases c <;> rfl
@[simp] theorem setFtw_early (c : Bank) (t : TuningWord) (s : State) : (setFtw c t s).early = s.early := by cases c <;> rfl
@[simp] theorem setFtw_free (c : Bank) (t : TuningWord) (s : State) : (setFtw c t s).free = s.free := by cases c <;> rfl

@[simp] theorem ftwOf_setFtw_self (c : Bank) (t : TuningWord) (s : State) : ftwOf c (setFtw c t s) = some t := by
  cases c <;> rfl

theorem ftwOf_setFtw_other (c d : Bank) (t : TuningWord) (s : State) (h : c ≠ d) :
    ftwOf d (setFtw c t s) = ftwOf d s := by
  cases c <;> cases d <;> first | rfl | exact absurd rfl h

@[simp] theorem pinLevel_setPin_self (p : Line) (l : Level) (pins : Pins) : pinLevel p (setPin p l pins) = l := by
  cases p <;> rfl

theorem pinLevel_setPin_other (p q : Line) (l : Level) (pins : Pins) (h : p ≠ q) :
    pinLevel q (setPin p l pins) = pinLevel q pins := by
  cases p <;> cases q <;> first | rfl | exact absurd rfl h

@[simp] theorem dirSet_setDir_self (p : Line) (d : Dirs) : dirSet p (setDir p d) = true := by
  cases p <;> rfl

theorem dirSet_setDir_of_set (p q : Line) (d : Dirs) (h : dirSet q d = true) : dirSet q (setDir p d) = true := by
  cases p <;> cases q <;> first | rfl | exact h

@[simp] theorem setDir_allSet (p : Line) :
    setDir p { clk := true, data := true, cs := true } = { clk := true, data := true, cs := true } := by
  cases p <;> rfl

/-- A status is no event of the wire: the observer does not move. -/
@[simp] theorem observe_status (cfg : Cfg) (b : Bool) (o : Observer) (st : Status) :
    observe cfg b o (.status st) = (o, none) := by
  unfold observe; split <;> rfl

/-- A delay is no event of the wire: the observer does not move. -/
@[simp] theorem observe_delay (cfg : Cfg) (b : Bool) (o : Observer) (k : DelayKind) :
    observe cfg b o (.delay k) = (o, none) := by
  unfold observe; split <;> rfl

/-- A direction call is no event of the wire: the observer does not move. -/
@[simp] theorem observe_dir (cfg : Cfg) (b : Bool) (o : Observer) (p : Line) :
    observe cfg b o (.dir p) = (o, none) := by
  unfold observe; split <;> rfl

/-- Recording a status only extends the observation. -/
theorem emit_status (st : Status) (s : State) : emit (.status st) s = { s with trace := s.trace ++ [.status st] } := by
  simp [emit, samplesUnknown, takesSample]

/-- Recording a delay only extends the observation. -/
theorem emit_delay (k : DelayKind) (s : State) : emit (.delay k) s = { s with trace := s.trace ++ [.delay k] } := by
  simp [emit, samplesUnknown, takesSample]

/-- Recording a direction only extends the observation. -/
theorem emit_dir (p : Line) (s : State) : emit (.dir p) s = { s with trace := s.trace ++ [.dir p] } := by
  simp [emit, samplesUnknown, takesSample]

end Sys2Proof.Machine
end

