-- ==== Sys2Proof/Laws/Ops.lean ====
section
/-! SUPPORT. One lemma per shared operation that says all it can do: micro-actions, the sequencer, the acceptance of a
command, the device words, and the inversion of a step. -/

namespace Sys2Proof.Machine

/-! ### Micro-actions -/

@[simp] theorem applyAct_cfg (a : Act) (s : State) : (applyAct a s).cfg = s.cfg := by cases a <;> simp [applyAct]
@[simp] theorem applyAct_acts (a : Act) (s : State) : (applyAct a s).acts = s.acts := by cases a <;> simp [applyAct]
@[simp] theorem applyAct_pc (a : Act) (s : State) : (applyAct a s).pc = s.pc := by cases a <;> simp [applyAct]
@[simp] theorem applyAct_fault (a : Act) (s : State) : (applyAct a s).fault = s.fault := by cases a <;> simp [applyAct]
@[simp] theorem applyAct_port (a : Act) (s : State) : (applyAct a s).port = s.port := by cases a <;> simp [applyAct]
@[simp] theorem applyAct_answers (a : Act) (s : State) : (applyAct a s).answers = s.answers := by
  cases a <;> simp [applyAct]
/-- A micro-action reaches the device's registers through nothing but the words of its frames; a `Delay(WORD)` separates them. -/
theorem applyAct_dev (a : Act) (s : State) :
    (applyAct a s).dev = if a = .delay .word then { s.dev with spaced := true } else s.dev := by
  cases a with
  | delay k => cases k <;> simp [applyAct]
  | gpioDir p => simp [applyAct]
  | gpioWrite p l => simp [applyAct]
  | setCr v => simp [applyAct]
  | setFtw c t => simp [applyAct]
  | setBegun => simp [applyAct]
@[simp] theorem applyAct_early (a : Act) (s : State) : (applyAct a s).early = s.early := by cases a <;> simp [applyAct]

/-- A completed micro-action adds its one event, or none, to the observation (R15). -/
theorem applyAct_trace (a : Act) (s : State) : (applyAct a s).trace = s.trace ++ (actEvent a).toList := by
  cases a <;> simp [applyAct, actEvent]

/-- A micro-action that asks no driver is performed (R151, R152). -/
theorem performAct_internal {a : Act} (s : State) (h : actLine a = none) : performAct a s = applyAct a s := by
  simp [performAct, h]

/-- A GPIO micro-action that the driver completes (R205). -/
theorem performAct_completed {a : Act} {p : Line} {s : State} (h : actLine a = some p)
    (hc : nextAnswer s = .completed) : performAct a s = applyAct a (takeAnswer s) := by
  simp [performAct, h, hc]

/-- A GPIO micro-action that the driver fails (R206). -/
theorem performAct_failed {a : Act} {p : Line} {s : State} (h : actLine a = some p)
    (hc : nextAnswer s = .failed) : performAct a s = raiseIoFailure p (takeAnswer s) := by
  simp [performAct, h, hc]

/-- All that performing a micro-action can do: take effect, or fail on its line. -/
theorem performAct_cases (a : Act) (s : State) :
    (actLine a = none ∧ performAct a s = applyAct a s) ∨
    (∃ p, actLine a = some p ∧ nextAnswer s = .completed ∧ performAct a s = applyAct a (takeAnswer s)) ∨
    (∃ p, actLine a = some p ∧ nextAnswer s = .failed ∧ performAct a s = raiseIoFailure p (takeAnswer s)) := by
  rcases hl : actLine a with _ | p
  · exact .inl ⟨rfl, performAct_internal s hl⟩
  · rcases hc : nextAnswer s with _ | _
    · exact .inr (.inl ⟨p, rfl, rfl, performAct_completed hl hc⟩)
    · exact .inr (.inr ⟨p, rfl, rfl, performAct_failed hl hc⟩)

/-! ### The sequencer -/

/-- All that `advance` can do: move on to the next micro-action, or complete the command (R44). -/
theorem advance_cases (s : State) :
    (s.pc + 1 < s.acts.length ∧ advance s = { s with pc := s.pc + 1 }) ∨
    (s.acts.length ≤ s.pc + 1 ∧ advance s = completeCommand s) := by
  unfold advance
  split
  · exact .inl ⟨‹_›, rfl⟩
  · exact .inr ⟨by omega, rfl⟩

/-- All that one step of the sequencer can do from a state that is not FAILED (R13, R44, R206). -/
theorem sequencerStep_cases (s : State) (hf : s.fault = none) :
    (s.acts[s.pc]? = none ∧ sequencerStep s = completeCommand s) ∨
    (∃ a p, s.acts[s.pc]? = some a ∧ actLine a = some p ∧ nextAnswer s = .failed ∧
      sequencerStep s = loseDevice (raiseIoFailure p (takeAnswer s))) ∨
    (∃ a, s.acts[s.pc]? = some a ∧ actLine a = none ∧ sequencerStep s = advance (applyAct a s)) ∨
    (∃ a p, s.acts[s.pc]? = some a ∧ actLine a = some p ∧ nextAnswer s = .completed ∧
      sequencerStep s = advance (applyAct a (takeAnswer s))) := by
  rcases ha : s.acts[s.pc]? with _ | a
  · exact .inl ⟨rfl, by simp [sequencerStep, ha]⟩
  · rcases performAct_cases a s with ⟨hl, he⟩ | ⟨p, hl, hc, he⟩ | ⟨p, hl, hc, he⟩
    · exact .inr (.inr (.inl ⟨a, rfl, hl, by simp [sequencerStep, ha, he, hf]⟩))
    · exact .inr (.inr (.inr ⟨a, p, rfl, hl, hc, by simp [sequencerStep, ha, he, hf]⟩))
    · exact .inr (.inl ⟨a, p, rfl, hl, hc, by simp [sequencerStep, ha, he]⟩)

/-! ### Accepting a command -/

/-- All that presenting a command can do when it answers a next state (R13, R44, R152). -/
theorem acceptCommand_cases {c : Command} {f : Bool} {plan : Except Cause (List Act)} {s t : State}
    (h : acceptCommand c f plan s = .next t) :
    s.fault = none ∧
    ((s.acts ≠ [] ∧ t = { s with port := c :: s.port }) ∨
     (s.acts = [] ∧ ∃ cause, plan = .error cause ∧ t = raiseInvalid cause s) ∨
     (s.acts = [] ∧ ∃ acts, plan = .ok acts ∧ t = loadActs f acts s)) := by
  unfold acceptCommand at h
  rcases hf : s.fault with _ | p
  · simp only [hf] at h
    refine ⟨rfl, ?_⟩
    rcases ha : s.acts with _ | ⟨a, as⟩
    · simp only [ha] at h
      rcases plan with cause | acts
      · injection h with h; exact .inr (.inl ⟨rfl, cause, rfl, h.symm⟩)
      · injection h with h; exact .inr (.inr ⟨rfl, acts, rfl, h.symm⟩)
    · simp only [ha] at h
      injection h with h; exact .inl ⟨by simp, h.symm⟩
  · simp [hf] at h

/-- A command that passes validation, presented to an idle instance that is not FAILED, is loaded (R13). -/
theorem acceptCommand_ok {c : Command} {f : Bool} {plan : Except Cause (List Act)} {acts : List Act} {s : State}
    (hf : s.fault = none) (ha : s.acts = []) (hp : plan = .ok acts) :
    acceptCommand c f plan s = .next (loadActs f acts s) := by
  simp [acceptCommand, hf, ha, hp]

/-- A command that fails validation, presented to an idle instance that is not FAILED, raises its cause (R202). -/
theorem acceptCommand_error {c : Command} {f : Bool} {plan : Except Cause (List Act)} {cause : Cause} {s : State}
    (hf : s.fault = none) (ha : s.acts = []) (hp : plan = .error cause) :
    acceptCommand c f plan s = .next (raiseInvalid cause s) := by
  simp [acceptCommand, hf, ha, hp]

/-! ### Device words -/

/-- Losing the device's registers changes nothing but the device and the count of free values. -/
theorem loseDevice_only (s : State) : { loseDevice s with dev := s.dev, free := s.free } = s := rfl

/-- Losing the device's registers leaves the durations it requires. -/
theorem loseDevice_times (s : State) :
    (loseDevice s).dev.setupTime = s.dev.setupTime ∧ (loseDevice s).dev.settleTime = s.dev.settleTime := ⟨rfl, rfl⟩

/-- A received control word changes nothing but the device and the count of free values. -/
theorem receiveCtrl_only (w : Word) (s : State) : { receiveCtrl w s with dev := s.dev, free := s.free } = s := by
  unfold receiveCtrl; split
  · rfl
  · split <;> rfl

/-- A received LSB half changes nothing but the device and the count of free values. -/
theorem receiveLsb_only (c : Bank) (h : Half) (s : State) :
    { receiveLsb c h s with dev := s.dev, free := s.free } = s := by
  unfold receiveLsb; split
  · rfl
  · split <;> rfl

/-- A received MSB half changes nothing but the device and the count of free values. -/
theorem receiveMsb_only (c : Bank) (h : Half) (s : State) :
    { receiveMsb c h s with dev := s.dev, free := s.free } = s := by
  unfold receiveMsb; split
  · rfl
  · split
    · split <;> rfl
    · rfl
    · rfl
    · rfl

/-- After a received control word no half is pending, and the durations the device requires are as before. -/
theorem receiveCtrl_place (w : Word) (s : State) :
    pendingBank (receiveCtrl w s).dev.latch = none ∧ (receiveCtrl w s).dev.setupTime = s.dev.setupTime ∧
      (receiveCtrl w s).dev.settleTime = s.dev.settleTime ∧ (receiveCtrl w s).dev.spaced = false := by
  have hw : ∀ u : State, pendingBank (writeCtrl w u).dev.latch = none := by
    intro u; rw [writeCtrl_dev]; dsimp only; split <;> rfl
  unfold receiveCtrl; split
  · exact ⟨rfl, rfl, rfl, rfl⟩
  · split
    · exact ⟨hw _, rfl, rfl, rfl⟩
    · exact ⟨hw _, rfl, rfl, rfl⟩

/-- After a received first half its bank is pending, whatever the half did (R90), and the durations the device requires are as
before. -/
theorem receiveLsb_place (c : Bank) (h : Half) (s : State) :
    pendingBank (receiveLsb c h s).dev.latch = some c ∧ (receiveLsb c h s).dev.setupTime = s.dev.setupTime ∧
      (receiveLsb c h s).dev.settleTime = s.dev.settleTime ∧ (receiveLsb c h s).dev.spaced = false := by
  unfold receiveLsb; split
  · exact ⟨rfl, rfl, rfl, rfl⟩
  · split <;> exact ⟨rfl, rfl, rfl, rfl⟩

/-- After a received second half no half is pending (R90), and the durations the device requires are as before. -/
theorem receiveMsb_place (c : Bank) (h : Half) (s : State) :
    pendingBank (receiveMsb c h s).dev.latch = none ∧ (receiveMsb c h s).dev.setupTime = s.dev.setupTime ∧
      (receiveMsb c h s).dev.settleTime = s.dev.settleTime ∧ (receiveMsb c h s).dev.spaced = false := by
  unfold receiveMsb; split
  · exact ⟨rfl, rfl, rfl, rfl⟩
  · split
    · split
      · cases c <;> exact ⟨rfl, rfl, rfl, rfl⟩
      · exact ⟨rfl, rfl, rfl, rfl⟩
    · exact ⟨rfl, rfl, rfl, rfl⟩
    · exact ⟨rfl, rfl, rfl, rfl⟩
    · exact ⟨rfl, rfl, rfl, rfl⟩

/-- A word of a format decodes to a device word (R90). -/
theorem decodeWord_cases {cfg : Cfg} {pending : Option Bank} {w : Word} {i : Instr}
    (h : decodeWord cfg pending w = .ok i) :
    i = .dwCtrl (wordPayload w) ∨ i = .dwFreq0Lsb (wordPayload w) ∨ i = .dwFreq0Msb (wordPayload w) ∨
      i = .dwFreq1Lsb (wordPayload w) ∨ i = .dwFreq1Msb (wordPayload w) := by
  unfold decodeWord at h
  split at h
  · injection h with h; exact .inl h.symm
  · split at h
    · injection h with h
      unfold frequencyInstr at h; subst h
      by_cases hp : pending = some .bank0 <;> simp [hp]
    · split at h
      · injection h with h
        unfold frequencyInstr at h; subst h
        by_cases hp : pending = some .bank1 <;> simp [hp]
      · cases h

/-- Running a received word of a format answers a next state that changed nothing but the device and the count of free
values. -/
theorem exec_received {cfg : Cfg} {pending : Option Bank} {w : Word} {i : Instr} (s : State)
    (h : decodeWord cfg pending w = .ok i) :
    ∃ t, exec i s = .next t ∧ { t with dev := s.dev, free := s.free } = s := by
  rcases decodeWord_cases h with rfl | rfl | rfl | rfl | rfl
  · exact ⟨_, rfl, receiveCtrl_only _ s⟩
  · exact ⟨_, rfl, receiveLsb_only _ _ s⟩
  · exact ⟨_, rfl, receiveMsb_only _ _ s⟩
  · exact ⟨_, rfl, receiveLsb_only _ _ s⟩
  · exact ⟨_, rfl, receiveMsb_only _ _ s⟩

/-! ### The step -/

theorem fetch_failed {s : State} {p : Line} (h : s.fault = some p) : fetch s = .failed p := by simp [fetch, h]

theorem fetch_received {s : State} {e : Emission} {rest : List Emission} (hf : s.fault = none) (h : s.rx = e :: rest) :
    fetch s = fetchReceived e { s with rx := rest } := by simp [fetch, hf, h]

theorem fetch_act {s : State} (hf : s.fault = none) (hr : s.rx = []) (ha : s.acts ≠ []) : fetch s = .act := by
  obtain ⟨a, as, h⟩ := List.exists_cons_of_ne_nil ha
  simp [fetch, hf, hr, h]

theorem fetch_command {s : State} {c : Command} {rest : List Command} (hf : s.fault = none) (hr : s.rx = [])
    (ha : s.acts = []) (hp : s.port = c :: rest) : fetch s = .run (decodeCommand c) { s with port := rest } := by
  simp [fetch, hf, hr, ha, hp]

theorem fetch_idle {s : State} (hf : s.fault = none) (hr : s.rx = []) (ha : s.acts = []) (hp : s.port = []) :
    fetch s = .idle := by
  simp [fetch, hf, hr, ha, hp]

/-- What the device takes, as an instruction or not, leaves everything but the device and the count of free values. -/
theorem step_received_only {s t : State} {e : Emission} {rest : List Emission} (hf : s.fault = none)
    (hr : s.rx = e :: rest) (h : step s = .next t) : ∃ d n, t = { s with rx := rest, dev := d, free := n } := by
  unfold step at h
  rw [fetch_received hf hr] at h
  cases e with
  | word w =>
    rcases hd : decodeWord s.cfg (pendingBank s.dev.latch) w with err | i
    · simp only [fetchReceived, decode, hd] at h
      injection h with h; exact ⟨_, _, h.symm⟩
    · simp only [fetchReceived, decode, hd] at h
      obtain ⟨u, hu, hframe⟩ := exec_received { s with rx := rest } hd
      rw [h] at hu; injection hu with hu; subst hu
      refine ⟨t.dev, t.free, ?_⟩
      rw [State.mk.injEq] at hframe ⊢
      simp_all
  | malformed n => simp only [fetchReceived] at h; injection h with h; exact ⟨_, _, h.symm⟩
  | aborted => simp only [fetchReceived] at h; injection h with h; exact ⟨_, _, h.symm⟩

/-- All that a step can do when it answers a next state: the device takes what it received, the sequencer performs a
micro-action, the block takes a command from the port, or the idle block waits. -/
theorem step_cases {s t : State} (h : step s = .next t) :
    s.fault = none ∧
    ((∃ e rest, s.rx = e :: rest ∧ ∃ d n, t = { s with rx := rest, dev := d, free := n }) ∨
     (s.rx = [] ∧ s.acts ≠ [] ∧ t = sequencerStep s) ∨
     (s.rx = [] ∧ s.acts = [] ∧ ∃ c rest, s.port = c :: rest ∧
        exec (decodeCommand c) { s with port := rest } = .next t) ∨
     (s.rx = [] ∧ s.acts = [] ∧ s.port = [] ∧ t = s)) := by
  have hf : s.fault = none := by
    by_contra hne
    obtain ⟨p, hp⟩ := Option.ne_none_iff_exists'.mp hne
    simp [step, fetch_failed hp] at h
  refine ⟨hf, ?_⟩
  by_cases hr : s.rx = []
  · by_cases ha : s.acts = []
    · rcases hp : s.port with _ | ⟨c, rest⟩
      · rw [step, fetch_idle hf hr ha hp] at h
        injection h with h; exact .inr (.inr (.inr ⟨hr, ha, rfl, h.symm⟩))
      · rw [step, fetch_command hf hr ha hp] at h
        exact .inr (.inr (.inl ⟨hr, ha, c, rest, rfl, h⟩))
    · rw [step, fetch_act hf hr ha] at h
      injection h with h; exact .inr (.inl ⟨hr, ha, h.symm⟩)
  · obtain ⟨e, rest, he⟩ := List.exists_cons_of_ne_nil hr
    exact .inl ⟨e, rest, he, step_received_only hf he h⟩

end Sys2Proof.Machine
end

