-- ==== Sys2Proof/Laws/PerInstr.lean ====
section
/-! SUPPORT. What holds of every instruction as syntax, one lemma per constructor: the encoding carries the fixed bits that
the opcode table gives the instruction's row (R81, R86, R88, under the default tags of R89). -/

namespace Sys2Proof.Laws

/-- The bits of a packet that the opcode table fixes some of: the op code of a record, or the whole device word. -/
def packetBits : Packet → Nat
  | .command c => c.op.toNat
  | .word w => w.toNat

/-- The mask and the match of an instruction's row in the opcode table. -/
def tableRow : Instr → Nat × Nat
  | .transfer _ => (0b111, 0b000)
  | .beginCmd => (0b111, 0b001)
  | .resetCmd => (0b111, 0b010)
  | .setMode _ => (0b111, 0b011)
  | .setFrequency _ _ => (0b111, 0b100)
  | .setActiveFrequency _ => (0b111, 0b101)
  | .reserved6 => (0b111, 0b110)
  | .reserved7 => (0b111, 0b111)
  | .dwCtrl _ => (0xC000, 0x0000)
  | .dwFreq0Lsb _ => (0xC000, 0x4000)
  | .dwFreq0Msb _ => (0xC000, 0x4000)
  | .dwFreq1Lsb _ => (0xC000, 0x8000)
  | .dwFreq1Msb _ => (0xC000, 0x8000)

/-- The encoding under the default configuration has the fixed bits of the instruction's row. -/
def MatchesTable.Statement (i : Instr) : Prop :=
  packetBits (encode Machine.defaultCfg i) &&& (tableRow i).1 = (tableRow i).2

/-- The two top bits of a tagged word are its tag. -/
theorem tagged_and_mask (t : Tag) (p : BitVec 14) : (t ++ p : BitVec (2 + 14)).toNat &&& 0xC000 = t.toNat <<< 14 := by
  have h : (t ++ p : BitVec (2 + 14)) &&& 0xC000#16 = t ++ 0#14 := by
    ext i hi
    have hm : (0xC000#16 : BitVec (2 + 14))[i] = decide (14 ≤ i) := by
      clear t p; revert i hi; decide
    simp only [BitVec.getElem_and, BitVec.getElem_append, hm]
    split <;> rename_i hlt <;> simp <;> omega
  calc (t ++ p : BitVec (2 + 14)).toNat &&& 0xC000
      = ((t ++ p : BitVec (2 + 14)) &&& 0xC000#16).toNat := by rw [BitVec.toNat_and]; rfl
    _ = t.toNat <<< 14 := by rw [h, BitVec.toNat_append]; simp

namespace MatchesTable

theorem transfer (word : Int) : Statement (.transfer word) := by
  simp [Statement, packetBits, encode, tableRow, bareCommand]
theorem beginCmd : Statement .beginCmd := rfl
theorem resetCmd : Statement .resetCmd := rfl
theorem setMode (mode : BitVec 3) : Statement (.setMode mode) := by
  simp [Statement, packetBits, encode, tableRow, bareCommand]
theorem setFrequency (channel : Int) (freq : Rat) : Statement (.setFrequency channel freq) := by
  simp [Statement, packetBits, encode, tableRow, bareCommand]
theorem setActiveFrequency (channel : Int) : Statement (.setActiveFrequency channel) := by
  simp [Statement, packetBits, encode, tableRow, bareCommand]
theorem reserved6 : Statement .reserved6 := rfl
theorem reserved7 : Statement .reserved7 := rfl
theorem dwCtrl (fields : BitVec 14) : Statement (.dwCtrl fields) := tagged_and_mask 0b00#2 fields
theorem dwFreq0Lsb (half : Half) : Statement (.dwFreq0Lsb half) := tagged_and_mask 0b01#2 half
theorem dwFreq0Msb (half : Half) : Statement (.dwFreq0Msb half) := tagged_and_mask 0b01#2 half
theorem dwFreq1Lsb (half : Half) : Statement (.dwFreq1Lsb half) := tagged_and_mask 0b10#2 half
theorem dwFreq1Msb (half : Half) : Statement (.dwFreq1Msb half) := tagged_and_mask 0b10#2 half

end MatchesTable

end Sys2Proof.Laws
end

