-- ==== Sys2Proof/Laws/Runs.lean ====
section
/-! SUPPORT. Runs of many steps: a run is cut in two, and a stretch of a command in which no call fails and the device has
nothing to take performs its micro-actions one after the other. -/

namespace Sys2Proof.Machine

/-- A run of one step and `n` more, on any machine. -/
theorem coreRun_succ (M : Host.Core) (n : Nat) {s t : M.State} (h : M.step s = .next t) :
    M.run (n + 1) s = M.run n t := by
  rw [Host.Core.run, h]

/-- A run that reaches a state goes on from there, on any machine. -/
theorem coreRun_add (M : Host.Core) {m : Nat} (n : Nat) {s t : M.State} (h : M.run m s = .next t) :
    M.run (m + n) s = M.run n t := by
  induction m generalizing s with
  | zero =>
    rw [Host.Core.run] at h
    cases h
    rw [Nat.zero_add]
  | succ k ih =>
    rw [Nat.add_right_comm]
    cases hs : M.step s with
    | next s' =>
      rw [coreRun_succ M _ hs] at h
      rw [coreRun_succ M _ hs]
      exact ih h
    | fault r => rw [Host.Core.run, hs] at h; cases h
    | refused r => rw [Host.Core.run, hs] at h; cases h

/-- A run of one step and `n` more. -/
theorem run_succ (n : Nat) {s t : State} (h : step s = .next t) :
    Host.Core.run Sys2Proof.core (n + 1) s = Host.Core.run Sys2Proof.core n t := coreRun_succ Sys2Proof.core n h

/-- A run that reaches a state goes on from there. -/
theorem run_add {m : Nat} (n : Nat) {s t : State} (h : Host.Core.run Sys2Proof.core m s = .next t) :
    Host.Core.run Sys2Proof.core (m + n) s = Host.Core.run Sys2Proof.core n t := coreRun_add Sys2Proof.core n h

/-- The place of the sequencer plays no part in the effect of a micro-action. -/
theorem applyAct_withPc (a : Act) (n : Nat) (s : State) :
    applyAct a { s with pc := n } = { applyAct a s with pc := n } := by
  cases a with
  | setFtw c t => cases c <;> rfl
  | gpioDir p => rfl
  | gpioWrite p l => rfl
  | delay k => cases k <;> rfl
  | setCr v => rfl
  | setBegun => rfl

/-- A driver that completes every call from here on. -/
def AllComplete (s : State) : Prop := ∀ a ∈ s.answers, a = DriverAnswer.completed

theorem nextAnswer_of_allComplete {s : State} (h : AllComplete s) : nextAnswer s = .completed := by
  unfold nextAnswer
  cases ha : s.answers with
  | nil => rfl
  | cons a as => exact h a (by simp [ha])

/-- Without a failure a micro-action is its effect, after the answer it uses up. -/
theorem performAct_of_allComplete (a : Act) {s : State} (h : AllComplete s) :
    performAct a s = applyAct a (if actLine a = none then s else takeAnswer s) := by
  cases hl : actLine a with
  | none => simp [performAct_internal s hl]
  | some p => simp [performAct_completed hl (nextAnswer_of_allComplete h)]

/-- Without a failure a micro-action leaves the fault, the micro-actions and the driver as they have to be to go on. -/
theorem performAct_goesOn (a : Act) {s : State} (h : AllComplete s) :
    (performAct a s).fault = s.fault ∧ (performAct a s).acts = s.acts ∧ (performAct a s).pc = s.pc ∧
      AllComplete (performAct a s) := by
  rw [performAct_of_allComplete a h]
  split
  · exact ⟨by simp, by simp, by simp, by simpa [AllComplete] using h⟩
  · refine ⟨by simp, by simp, by simp, ?_⟩
    intro x hx
    simp only [applyAct_answers, takeAnswer_answers] at hx
    exact h x (List.mem_of_mem_tail hx)

/-- One micro-action that is not the command's last. -/
theorem step_act {s : State} {a : Act} (hf : s.fault = none) (hr : s.rx = []) (hc : AllComplete s)
    (ha : s.acts[s.pc]? = some a) (hl : s.pc + 1 < s.acts.length) :
    step s = .next { performAct a s with pc := s.pc + 1 } := by
  have hne : s.acts ≠ [] := by intro h; simp [h] at hl
  obtain ⟨h1, h2, h3, -⟩ := performAct_goesOn a hc
  rw [step, fetch_act hf hr hne]
  show Host.Outcome.next (sequencerStep s) = _
  rw [sequencerStep, ha]
  simp only [h1, hf, advance, h2, h3, hl, if_true]

/-- The last micro-action of a command. -/
theorem step_lastAct {s : State} {a : Act} (hf : s.fault = none) (hr : s.rx = []) (hc : AllComplete s)
    (ha : s.acts[s.pc]? = some a) (hl : s.acts.length = s.pc + 1) :
    step s = .next (completeCommand (performAct a s)) := by
  have hne : s.acts ≠ [] := by intro h; simp [h] at hl
  obtain ⟨h1, h2, h3, -⟩ := performAct_goesOn a hc
  have hg : ¬ s.pc + 1 < s.acts.length := by omega
  rw [step, fetch_act hf hr hne]
  show Host.Outcome.next (sequencerStep s) = _
  rw [sequencerStep, ha]
  simp only [h1, hf, advance, h2, h3, hg, if_false]

end Sys2Proof.Machine
end

