-- ==== Sys2Proof/Machine/Assembler.lean ====
section
/-! DEFINITION. The textual syntax of a command (R96): one a line, `;` starting a comment, mnemonics case-insensitive, numbers
in decimal, `0x` hexadecimal or `0b` binary, a frequency also as an exact fraction `p/q`. -/

namespace Sys2Proof.Machine

/-- The part of a line before its comment. -/
def stripComment (line : List Char) : List Char := line.takeWhile (· != ';')

/-- Words and commas of a line, upper-cased, in order; `word` is the word being read. -/
def lexFrom (word : List Char) : List Char → List (List Char)
  | [] => if word.isEmpty then [] else [word]
  | c :: cs =>
    if c = ' ' ∨ c = '\t' then
      if word.isEmpty then lexFrom [] cs else word :: lexFrom [] cs
    else if c = ',' then
      if word.isEmpty then [','] :: lexFrom [] cs else word :: [','] :: lexFrom [] cs
    else lexFrom (word ++ [c.toUpper]) cs

/-- The value of a digit. -/
def digitValue (c : Char) : Option Nat :=
  if '0' ≤ c ∧ c ≤ '9' then some (c.toNat - '0'.toNat)
  else if 'A' ≤ c ∧ c ≤ 'F' then some (c.toNat - 'A'.toNat + 10)
  else none

/-- The value of a run of digits of a base, on top of the value read so far. -/
def digitsFrom (base : Nat) (value : Nat) : List Char → Option Nat
  | [] => some value
  | c :: cs =>
    match digitValue c with
    | some d => if d < base then digitsFrom base (value * base + d) cs else none
    | none => none

/-- A number without sign. -/
def readNat : List Char → Option Nat
  | [] => none
  | '0' :: 'X' :: c :: cs => digitsFrom 16 0 (c :: cs)
  | '0' :: 'B' :: c :: cs => digitsFrom 2 0 (c :: cs)
  | c :: cs => digitsFrom 10 0 (c :: cs)

/-- A number, with an optional minus sign. -/
def readInt : List Char → Option Int
  | '-' :: cs => (readNat cs).map (fun n => - (n : Int))
  | cs => (readNat cs).map (fun n => (n : Int))

/-- A frequency: a number, or an exact fraction with a denominator that is not zero. -/
def readRat (cs : List Char) : Option Rat :=
  match cs.dropWhile (· != '/') with
  | [] => (readInt cs).map (fun n => mkRat n 1)
  | _ :: den =>
    match readInt (cs.takeWhile (· != '/')), readNat den with
    | some n, some d => if d = 0 then none else some (mkRat n d)
    | _, _ => none

/-- The mode code of one of the five names (R85). -/
def modeNamed (cs : List Char) : Option (BitVec 3) :=
  if cs = "SINE".toList then some 0#3
  else if cs = "TRIANGLE".toList then some 1#3
  else if cs = "SQUARE1".toList then some 2#3
  else if cs = "SQUARE2".toList then some 3#3
  else if cs = "OFF".toList then some 4#3
  else none

/-- The mode operand in text (R96): one of the five names, or `?<name>` for a name outside the five, which is mode code 5. DESIGN
CHOICE (assumption 18): names are taken in any case, as R96 says of mnemonics only, and a bare `?` and a `?` before one of the five
names are no operand. -/
def readMode : List Char → Option (BitVec 3)
  | [] => none
  | '?' :: [] => none
  | '?' :: c :: cs => if (modeNamed (c :: cs)).isSome then none else some 5#3
  | c :: cs => modeNamed (c :: cs)

/-- The command of a line's words. -/
def commandOfWords : List (List Char) → Option Command
  | [m] =>
    if m = "BEGIN".toList then some (bareCommand 0b001#3)
    else if m = "RESET".toList then some (bareCommand 0b010#3)
    else none
  | [m, a] =>
    if m = "TRANSFER".toList then (readInt a).map (fun n => { bareCommand 0b000#3 with word := n })
    else if m = "SET_MODE".toList then (readMode a).map (fun c => { bareCommand 0b011#3 with mode := c })
    else if m = "SET_ACTIVE_FREQUENCY".toList then (readInt a).map (fun n => { bareCommand 0b101#3 with channel := n })
    else none
  | [m, a, comma, b] =>
    if m = "SET_FREQUENCY".toList ∧ comma = [','] then
      match readInt a, readRat b with
      | some n, some f => some { bareCommand 0b100#3 with channel := n, freq := f }
      | _, _ => none
    else none
  | _ => none

/-- The command of a line of text (R96); a blank line and a line that is no command have none. -/
def assemble (line : List Char) : Option Command := commandOfWords (lexFrom [] (stripComment line))

end Sys2Proof.Machine
end

