-- ==== Sys2Proof/Tests/Slice0.lean ====
section
/-! SUPPORT. Tests: the checks of WellFormed and of the configuration, the decoding of every row, one step of every
instruction, and a witness that meets the hypotheses of every statement. Expected values come from the spec's tables, named at
each test. -/

namespace Sys2Proof.Tests

open Sys2Proof.Machine Sys2Proof.Safety

/-! ### Helpers -/

/-- Something of the state an outcome gives. -/
def look {α : Type} (f : State → α) : Host.Outcome State Fault Refusal → Option α
  | .next s => some (f s)
  | .fault _ => none
  | .refused _ => none

/-- The reset state after BEGIN's writes to the registers, as P1 of the test vectors leaves them. -/
def begun : State := { State.reset with cr := 0x2000#16, begun := true }

/-- A configuration with `SATURATE`. -/
def saturating : Cfg := { defaultCfg with overflowPolicy := .saturate }

/-- A configuration with other lines, for a second instance. -/
def elsewhere : Cfg := { defaultCfg with clkPin := 7, dataPin := 8, csPin := 9 }

/-- A configuration with `CPHA = 1`. -/
def secondPhase : Cfg := { defaultCfg with cpha := .second }

/-- An instance whose micro-actions and place in them are given. -/
def running (acts : List Act) (pc : Nat) (answers : List DriverAnswer) : State :=
  { begun with acts := acts, pc := pc, answers := answers }

/-- An instance whose device stands at a place of a frequency write. -/
def deviceAt (latch : Latch) : State := { begun with dev := { begun.dev with ctrl := 0x2000#16, latch := latch } }

/-- An instance in the middle of a SET_MODE TRIANGLE, whose invariant is not the reset state's. -/
def changingMode : State := loadActs true (updateActs defaultCfg 0x2002#16) begun

/-! ### WellFormed: each check refuses an ill-formed term (R83, R85, R94, R32) -/

theorem test_wf_word_below : (Instr.transfer (-1)).wellFormed defaultCfg = false := by decide
theorem test_wf_word_above : (Instr.transfer 65536).wellFormed defaultCfg = false := by decide
theorem test_wf_word_ends : ((Instr.transfer 0).wellFormed defaultCfg && (Instr.transfer 65535).wellFormed defaultCfg) = true := by
  decide
theorem test_wf_mode : (Instr.setMode 5#3).wellFormed defaultCfg = false := by decide
theorem test_wf_mode_end : (Instr.setMode 4#3).wellFormed defaultCfg = true := by decide
theorem test_wf_channel : (Instr.setFrequency 2 1000).wellFormed defaultCfg = false := by decide
theorem test_wf_freq_negative : (Instr.setFrequency 0 (-5)).wellFormed defaultCfg = false := by decide
theorem test_wf_freq_overflow : (Instr.setFrequency 0 25000000).wellFormed defaultCfg = false := by decide
theorem test_wf_freq_saturated : (Instr.setFrequency 0 25000000).wellFormed saturating = true := by decide
theorem test_wf_active_channel : (Instr.setActiveFrequency (-1)).wellFormed defaultCfg = false := by decide
theorem test_wf_reserved : (Instr.reserved6.wellFormed defaultCfg || Instr.reserved7.wellFormed defaultCfg) = false := by decide
theorem test_wf_reserved_bit : (Instr.dwCtrl 0x0200#14).wellFormed defaultCfg = false := by decide
theorem test_wf_control_word : (Instr.dwCtrl 0x2100#14).wellFormed defaultCfg = true := by decide

/-! ### Each check of a configuration refuses one (R242, R32, R35, R89) -/

theorem test_cfg_default : cfgValid defaultCfg = true := by decide
theorem test_cfg_pins : cfgValid { defaultCfg with csPin := 0 } = false := by decide
theorem test_cfg_mclk : cfgValid { defaultCfg with mclkHz := 0 } = false := by decide
theorem test_cfg_word_time : cfgValid { defaultCfg with tWord := -1 } = false := by decide
theorem test_cfg_settle_time : cfgValid { defaultCfg with tSettle := -1 } = false := by decide
theorem test_cfg_layout_repeat : cfgValid { defaultCfg with layout := { defaultLayout with hlb := 13 } } = false := by decide
theorem test_cfg_layout_high : cfgValid { defaultCfg with layout := { defaultLayout with hlb := 14 } } = false := by decide
theorem test_cfg_pattern_repeat :
    cfgValid { defaultCfg with patterns := { defaultPatterns with off := 0x0020#16 } } = false := by decide
theorem test_cfg_pattern_outside :
    cfgValid { defaultCfg with patterns := { defaultPatterns with off := 0x2000#16 } } = false := by decide
theorem test_cfg_mask_field : cfgValid { defaultCfg with modeMask := 0x20EA#16 } = false := by decide
theorem test_cfg_mask_reserved : cfgValid { defaultCfg with modeMask := 0x00EB#16 } = false := by decide
theorem test_cfg_tags_equal : cfgValid { defaultCfg with freqTag1 := 0b01#2 } = false := by decide
theorem test_cfg_tag_zero : cfgValid { defaultCfg with freqTag0 := 0b00#2 } = false := by decide

/-! ### Decoding: a packet of every row, written out from R81, R86, R88 and R89 -/

theorem test_decode_transfer :
    decode defaultCfg none (.command { op := 0b000#3, word := 0x2100, channel := 9, mode := 7#3, freq := 3 }) =
      .ok (.transfer 0x2100) := by decide
theorem test_decode_begin : decode defaultCfg none (.command (bareCommand 0b001#3)) = .ok .beginCmd := by decide
theorem test_decode_reset : decode defaultCfg none (.command (bareCommand 0b010#3)) = .ok .resetCmd := by decide
theorem test_decode_set_mode :
    decode defaultCfg none (.command { op := 0b011#3, word := 1, channel := 1, mode := 0b010#3, freq := 0 }) =
      .ok (.setMode 2#3) := by decide
theorem test_decode_set_frequency :
    decode defaultCfg none (.command { op := 0b100#3, word := 4, channel := 1, mode := 0#3, freq := 1000 }) =
      .ok (.setFrequency 1 1000) := by decide
theorem test_decode_set_active :
    decode defaultCfg none (.command { op := 0b101#3, word := 4, channel := 1, mode := 0#3, freq := 0 }) =
      .ok (.setActiveFrequency 1) := by decide
theorem test_decode_reserved6 : decodeTableWord 8 0b00000110 = some .reserved6 := by decide
theorem test_decode_reserved7 : decodeTableWord 8 0b00000111 = some .reserved7 := by decide
theorem test_decode_dw_ctrl :
    decode defaultCfg (some .bank0) (.word 0b0010000100000000#16) = .ok (.dwCtrl 0b10000100000000#14) := by decide
theorem test_decode_dw_freq0_lsb : decode defaultCfg none (.word 0x69F1#16) = .ok (.dwFreq0Lsb 0x29F1#14) := by decide
theorem test_decode_dw_freq0_msb :
    decode defaultCfg (some .bank0) (.word 0x428F#16) = .ok (.dwFreq0Msb 0x028F#14) := by decide
theorem test_decode_dw_freq1_lsb :
    decode defaultCfg (some .bank0) (.word 0x970A#16) = .ok (.dwFreq1Lsb 0x170A#14) := by decide
theorem test_decode_dw_freq1_msb :
    decode defaultCfg (some .bank1) (.word 0x828F#16) = .ok (.dwFreq1Msb 0x028F#14) := by decide
theorem test_decode_fourth_tag :
    decode defaultCfg none (.word 0xC123#16) = .error (.tagOfNoFormat 0b11#2) := by decide

/-! ### The operands: tuning words of the table TW (95_test_vectors.md) -/

theorem test_tw3 : checkFrequency defaultCfg 0 1000 = .ok (.bank0, 0x29F1#28) := by decide +kernel
theorem test_tw4 : checkFrequency defaultCfg 1 1000000 = .ok (.bank1, 0x0A3D70A#28) := by decide +kernel
theorem test_tw6 : checkFrequency defaultCfg 0 24999999 = .ok (.bank0, 0xFFFFFF5#28) := by decide +kernel
theorem test_tw7 : checkFrequency defaultCfg 0 25000000 = .error (.freqOverflow 0x10000000) := by decide +kernel
theorem test_tw8 : checkFrequency saturating 0 25000000 = .ok (.bank0, 0xFFFFFFF#28) := by decide +kernel
theorem test_tw10 :
    checkFrequency defaultCfg 0 (mkRat 209715199609375 8388608) = .error (.freqOverflow 268435456) := by decide +kernel
theorem test_tw12 : checkFrequency defaultCfg 0 (mkRat 1171875 8388608) = .ok (.bank0, 2#28) := by decide +kernel
theorem test_tw13 : checkFrequency defaultCfg 0 (mkRat 1953125 8388608) = .ok (.bank0, 2#28) := by decide +kernel
theorem test_tw14 : checkFrequency defaultCfg 0 (mkRat 1 2) = .ok (.bank0, 5#28) := by decide +kernel

/-! ### One step of every instruction (P1 to P3 of 95_test_vectors.md) -/

set_option maxRecDepth 20000

theorem test_transfer_accepts :
    look (fun t => t.acts.take 3) (exec (.transfer 0x2100) State.reset) =
      some [.gpioWrite .cs false, .gpioWrite .data false, .gpioWrite .clk false] := by decide
theorem test_transfer_rejects :
    look State.trace (exec (.transfer 65536) begun) =
      some (constructionTrace defaultCfg ++ [.status (.invalidArgument (.wordRange 65536))]) := by decide
theorem test_begin_accepts :
    look (fun t => (t.acts.length, crAfter t.cr t.acts)) (exec .beginCmd State.reset) = some (158, 0x2000#16) := by decide
theorem test_reset_accepts :
    look (fun t => (t.acts.length, crAfter t.cr t.acts)) (exec .resetCmd { begun with cr := 0x2028#16 }) =
      some (105, 0x2028#16) := by decide
theorem test_set_mode_triangle :
    look (fun t => crAfter t.cr t.acts) (exec (.setMode 1#3) begun) = some 0x2002#16 := by decide
theorem test_set_mode_square1 :
    look (fun t => crAfter t.cr t.acts) (exec (.setMode 2#3) { begun with cr := 0x2802#16 }) = some 0x2828#16 := by decide
theorem test_set_frequency_bank1 :
    look (fun t => (t.acts.length, t.acts.getLast?)) (exec (.setFrequency 1 12500000) begun) =
      some (154, some (.setFtw .bank1 0x8000000#28)) := by decide +kernel
theorem test_set_active_1 :
    look (fun t => crAfter t.cr t.acts) (exec (.setActiveFrequency 1) begun) = some 0x2800#16 := by decide
theorem test_reserved6_refused : exec .reserved6 begun = .refused (.reservedCommandCode 6#3) := rfl
theorem test_reserved7_refused : exec .reserved7 begun = .refused (.reservedCommandCode 7#3) := rfl
theorem test_dw_ctrl :
    look (fun t => (t.dev.ctrl, t.dev.latch)) (exec (.dwCtrl 0x2000#14) begun) = some (0x2000#16, .declared) := by decide
theorem test_dw_freq0_lsb :
    look (fun t => t.dev.latch) (exec (.dwFreq0Lsb 0x170A#14) (deviceAt .declared)) =
      some (.low .bank0 0x170A#14) := by decide
theorem test_dw_freq0_msb :
    look (fun t => t.dev.freq0) (exec (.dwFreq0Msb 0x028F#14) (deviceAt (.low .bank0 0x170A#14))) =
      some 0x0A3D70A#28 := by decide
theorem test_dw_freq1_lsb :
    look (fun t => t.dev.latch) (exec (.dwFreq1Lsb 0#14) (deviceAt .declared)) = some (.low .bank1 0#14) := by decide
theorem test_dw_freq1_msb :
    look (fun t => t.dev.freq1) (exec (.dwFreq1Msb 0x2000#14) (deviceAt (.low .bank1 0#14))) = some 0x8000000#28 := by decide

/-- A half before BEGIN has no stated effect (R250), and the next half of its bank is the second by its place (R90). -/
theorem test_place_when_early :
    look (fun t => fetchReceived (.word 0x4000#16) t) (exec (.dwFreq0Lsb 0x29F1#14) { begun with early := true }) =
      look (fun t => .run (.dwFreq0Msb 0#14) t) (exec (.dwFreq0Lsb 0x29F1#14) { begun with early := true }) := rfl
/-- With zero delays nothing is said of the device (R258). -/
theorem test_zero_delays :
    look (fun t => t.dev.ctrl) (exec (.dwCtrl 0x2000#14) { begun with cfg := { defaultCfg with tWord := 0 } }) =
      some (Config.freeCtrl 0) ∧
    timingMet { defaultCfg with tSettle := 0 } { begun.dev with settleTime := 0 } = false := ⟨rfl, by decide⟩
/-- A TRANSFER straight after another frame: nothing is said of the device (R253); a controller command's control word reaches it (P6 of
95_test_vectors.md, R257). -/
theorem test_crowded_words :
    look (fun t => t.dev.ctrl) (exec (.dwCtrl 0x2000#14) { begun with dev := { begun.dev with spaced := false } }) =
      some (Config.freeCtrl 0) ∧
    look (fun t => t.dev.ctrl) (exec (.dwCtrl 0x2800#14) { changingMode with dev := { begun.dev with spaced := false } }) =
      some 0x2800#16 := ⟨rfl, by decide⟩
/-- A construction that fails does not touch the device, nor does the recovery from it (R208, R243). -/
theorem test_recovery_keeps_device :
    look (fun t => (t.dev.ctrl, t.free)) (construct [] defaultCfg [.failed] begun.dev 3) = some (0#16, 3) ∧
    look (fun t => (t.fault, t.free)) (recover [] [] { begun with fault := some .cs, free := 5 }) = some (none, 5) :=
  ⟨rfl, rfl⟩

/-! ### The text of a command (R96) -/

theorem test_assemble_comment :
    assemble "  begin   ; op 0b001".toList = some (bareCommand 0b001#3) := by decide
theorem test_assemble_frequency :
    (assemble "SET_FREQUENCY 1, 1/2".toList).map decodeCommand = some (.setFrequency 1 (mkRat 1 2)) := by decide
theorem test_assemble_word :
    (assemble "TRANSFER 0x2100".toList).map decodeCommand = some (.transfer 0x2100) := by decide
theorem test_assemble_other_mode :
    (assemble "SET_MODE ?SAWTOOTH".toList).map decodeCommand = some (.setMode 5#3) := by decide
theorem test_assemble_no_mode :
    (assemble "SET_MODE ?".toList, assemble "SET_MODE ?SINE".toList) = (none, none) := by decide

/-! ### Witnesses: a concrete state and operands that meet the hypotheses of each statement with hypotheses -/

/-- An instance that has run BEGIN is at rest, and its driver fails no call. -/
theorem begun_atRest : AtRest begun :=
  { valid := by decide, noFault := rfl, noActs := rfl, pcZero := rfl, noReceived := rfl, clk := rfl, cs := rfl,
    synced := { running := rfl, clk := rfl, cs := rfl, data := rfl } }
theorem begun_noFailure : NoFailure begun := fun _ h => by cases h
theorem begun_deviceDefined : DeviceDefined begun := ⟨rfl, by decide, by decide⟩
theorem begun_accepting : Accepting begun := ⟨rfl, rfl⟩

theorem witness_StepRunsTheFetchedInstruction :
    begun.fault = none ∧
    (∃ s : State, s.fault = none ∧ s.rx = [] ∧ s.acts = [] ∧ s.port = [bareCommand 0b001#3] ∧
      decode s.cfg none (.command (bareCommand 0b001#3)) = .ok .beginCmd) ∧
    (∃ s : State, s.fault = none ∧ s.rx = [.word 0x2000#16] ∧
      decode s.cfg (pendingBank s.dev.latch) (.word 0x2000#16) = .ok (.dwCtrl 0x2000#14)) :=
  ⟨rfl, ⟨{ begun with port := [bareCommand 0b001#3] }, rfl, rfl, rfl, rfl, rfl⟩,
    ⟨{ begun with rx := [.word 0x2000#16] }, rfl, rfl, by decide⟩⟩

theorem witness_StepPerformsOrWaits :
    begun.fault = none ∧ begun.rx = [] ∧ begun.acts = [] ∧ begun.port = [] ∧
    (running [.delay .word] 0 []).fault = none ∧ (running [.delay .word] 0 []).rx = [] ∧
    (running [.delay .word] 0 []).acts ≠ [] := by decide

theorem witness_EncodingThenDecodingIsIdentity :
    tagsValid defaultCfg = true ∧ fitsPlace none (.dwFreq0Lsb 0x3FFF#14) = true ∧
    fitsPlace (some .bank0) (.dwFreq0Msb 0x3FFF#14) = true ∧ fitsPlace (some .bank0) (.dwFreq1Lsb 0#14) = true ∧
    fitsPlace (some .bank1) (.dwFreq1Msb 0#14) = true ∧ fitsPlace none (.transfer (-1)) = true := by decide

theorem witness_ControllerWordsCarryTheirTags :
    cfgValid defaultCfg = true ∧ hasBits 0x2028#16 (reservedMask defaultCfg) = false := by decide

theorem witness_ConstructionGivesTheStatedState :
    cfgValid defaultCfg = true ∧ (∀ o ∈ [elsewhere], sharesPin defaultCfg o = false) ∧
    (∀ a ∈ (List.replicate 5 DriverAnswer.completed ++ [DriverAnswer.failed]).take 5, a = DriverAnswer.completed) := by decide

theorem witness_ConstructionFailsAtTheFailingCall :
    cfgValid defaultCfg = true ∧ [Line.clk, Line.data, Line.cs, Line.cs, Line.clk][0]? = some .clk ∧
    [Line.clk, Line.data, Line.cs, Line.cs, Line.clk][4]? = some .clk := by decide

theorem witness_ConstructionRefusesBadConfigurations :
    cfgValid { defaultCfg with csPin := 0 } = false ∧ cfgValid defaultCfg = true ∧
    sharesPin defaultCfg { elsewhere with clkPin := 2 } = true := by decide

theorem witness_ControlRegisterIsZeroAtConstruction :
    ∃ s, construct [elsewhere] defaultCfg [.completed, .failed] Device.powerUp 0 = .next s := ⟨_, rfl⟩

theorem witness_MicroActionTakesEffect :
    (running [.setCr 0x2002#16, .delay .word] 0 []).fault = none ∧ (running [.setCr 0x2002#16, .delay .word] 0 []).rx = [] ∧
    (running [.setCr 0x2002#16, .delay .word] 0 []).acts[0]? = some (.setCr 0x2002#16) ∧ actLine (.setCr 0x2002#16) = none ∧
    0 + 1 < (running [.setCr 0x2002#16, .delay .word] 0 []).acts.length ∧
    (running [.setFtw .bank1 5#28, .gpioDir .cs] 1 []).acts[1]? = some (.gpioDir .cs) ∧
    nextAnswer (running [.setFtw .bank1 5#28, .gpioDir .cs] 1 []) = .completed ∧
    (running [.setFtw .bank1 5#28, .gpioDir .cs] 1 []).acts.length = 1 + 1 := by decide

theorem witness_FailedCallEndsTheCommand :
    (running [.gpioWrite .cs false] 0 [.failed]).fault = none ∧ (running [.gpioWrite .cs false] 0 [.failed]).rx = [] ∧
    (running [.gpioWrite .cs false] 0 [.failed]).acts[0]? = some (.gpioWrite .cs false) ∧
    actLine (.gpioWrite .cs false) = some .cs ∧ nextAnswer (running [.gpioWrite .cs false] 0 [.failed]) = .failed := by decide

theorem witness_FaultIsStickyAndTerminal :
    actLine (.gpioDir .data) = some .data ∧ nextAnswer (running [] 0 [.failed]) = .failed ∧
    ({ begun with fault := some Line.cs } : State).fault = some .cs := by decide

theorem witness_ConfigurationNeverChanges :
    (∃ s, construct [] defaultCfg [.failed] Device.powerUp 0 = .next s) ∧ (∃ t, exec .beginCmd begun = .next t) ∧
    (∃ t, step begun = .next t) := ⟨⟨_, rfl⟩, ⟨_, rfl⟩, ⟨_, rfl⟩⟩

theorem witness_DirectionsAreNeverCleared :
    nextAnswer begun = .completed ∧ nextAnswer (running [] 0 [.failed]) = .failed ∧
    (∃ s, construct [] defaultCfg [] Device.powerUp 0 = .next s ∧ s.fault = none) ∧
    (∃ t, step begun = .next t ∧ dirSet .cs begun.dirs = true) ∧
    (∃ t, begun.acts = [] ∧ exec .beginCmd begun = .next t) :=
  ⟨rfl, rfl, ⟨_, rfl, rfl⟩, ⟨_, rfl, rfl⟩, ⟨_, rfl, rfl⟩⟩

theorem witness_RegistersChangeOnlyByTheirMicroAction :
    (∃ t, step (running [.setCr 0x2002#16] 0 []) = .next t ∧ t.cr ≠ 0x2000#16) ∧
    (∃ t, step (running [.setFtw .bank1 7#28] 0 []) = .next t ∧ ftwOf .bank1 t ≠ none) ∧
    (∃ t, step { State.reset with acts := [.setBegun] } = .next t ∧ t.begun ≠ State.reset.begun) :=
  ⟨⟨_, rfl, by decide⟩, ⟨_, rfl, by decide⟩, ⟨_, rfl, by decide⟩⟩

theorem witness_OneStatusWhenACommandEnds :
    (∃ t, step (running [.delay .word, .delay .word] 0 []) = .next t ∧ t.acts ≠ []) ∧
    (∃ t, step (running [.delay .word] 0 []) = .next t ∧ (running [.delay .word] 0 []).acts ≠ [] ∧ t.acts = []) :=
  ⟨⟨_, rfl, by decide⟩, ⟨_, rfl, by decide, rfl⟩⟩

theorem witness_TransferIsElaborated : Accepting begun ∧ (0 : Int) ≤ 65535 ∧ (65535 : Int) ≤ 65535 ∧ (0 : Int) ≤ 0 :=
  ⟨begun_accepting, by decide, by decide, by decide⟩

theorem witness_Accepting : Accepting State.reset := ⟨rfl, rfl⟩

theorem witness_SetModeIsElaborated :
    Accepting begun ∧
    [defaultCfg.patterns.sine, defaultCfg.patterns.triangle, defaultCfg.patterns.square1, defaultCfg.patterns.square2,
      defaultCfg.patterns.off][(4#3).toNat]? = some 0x00C0#16 := ⟨begun_accepting, by decide⟩

theorem witness_SetFrequencyIsElaborated :
    Accepting begun ∧ ((1 : Int) = 0 ∧ Bank.bank1 = .bank0 ∨ (1 : Int) = 1 ∧ Bank.bank1 = .bank1) ∧ (0 : Rat) ≤ 1000 ∧
    tuningCandidate begun.cfg 1000 = (0x29F1#28).toNat := ⟨begun_accepting, by decide, by decide, by decide +kernel⟩

theorem witness_InvalidArgumentChangesNothing :
    Accepting begun ∧ ((-1 : Int) < 0 ∧ (65535 : Int) < 65536) ∧ 4 < (5#3).toNat ∧ ((2 : Int) ≠ 0 ∧ (2 : Int) ≠ 1) ∧
    (-5 : Rat) < 0 ∧ ((0 : Rat) ≤ 25000000 ∧ 2 ^ 28 ≤ tuningCandidate begun.cfg 25000000 ∧
      begun.cfg.overflowPolicy = .reject) :=
  ⟨begun_accepting, by decide, by decide, by decide, by decide, by decide, by decide +kernel, rfl⟩

theorem witness_WellFormedCommandsAreTakenUp :
    Accepting begun ∧ commandOf begun.cfg (.setMode 5#3) = some { bareCommand 0b011#3 with mode := 5#3 } :=
  ⟨begun_accepting, rfl⟩

theorem witness_SaturationLoadsTheMaximum :
    Accepting { begun with cfg := saturating } ∧ (0 : Rat) ≤ 25000000 ∧ 2 ^ 28 ≤ tuningCandidate saturating 25000000 ∧
    saturating.overflowPolicy = .saturate := ⟨⟨rfl, rfl⟩, by decide, by decide +kernel, rfl⟩

theorem witness_HostWaitsWhileACommandRuns :
    (running [.delay .word] 0 []).fault = none ∧ (running [.delay .word] 0 []).acts ≠ [] ∧
    commandOf defaultCfg .resetCmd = some (bareCommand 0b010#3) ∧ Instr.resetCmd ≠ .reserved6 ∧
    Instr.resetCmd ≠ .reserved7 := by decide

theorem witness_ChannelsNameTheBanks : cfgValid defaultCfg = true ∧ (2 : Int) ≠ 0 ∧ (-1 : Int) ≠ 1 := by decide

theorem witness_FrameIsFiftyWritesInOrder :
    0 < 16 ∧ 15 < 16 ∧ nextAnswer begun = .completed ∧ nextAnswer (running [] 0 [.failed]) = .failed := by decide

theorem witness_BitStepOrderFollowsThePhase : defaultCfg.cpha = .first ∧ secondPhase.cpha = .second := by decide

theorem witness_ObserverReadsTheWordOfItsFrame :
    (Observer.start defaultCfg).stopped = false ∧ (Observer.start defaultCfg).cs = true ∧
    (Observer.start defaultCfg).clk = defaultCfg.cpol := by decide

theorem witness_OneSamplingEdgePerBit :
    ∃ o : Observer, o.stopped = false ∧ o.cs = false ∧ o.clk = secondPhase.cpol ∧ secondPhase.cpha = .second ∧
      defaultCfg.cpha = .first := ⟨{ Observer.start secondPhase with cs := false }, by decide⟩

theorem witness_GoldenPairsOfAFrame : begun.pins.clk = .known defaultCfg.cpol := by decide

theorem witness_DriverCallsNameOnePin :
    actLine (.delay .word) = none ∧ driverCall defaultCfg (.gpioDir .cs) = some (.configureDirection 2 true) ∧
    driverCall defaultCfg (.gpioWrite .data true) = some (.writeLevel 1 true) := by decide

theorem witness_TransferAndResetComplete :
    AtRest begun ∧ NoFailure begun ∧ DeviceDefined begun := ⟨begun_atRest, begun_noFailure, begun_deviceDefined⟩

theorem witness_BeginCompletes :
    AtRest begun ∧ NoFailure begun ∧ begun.early = false ∧ timingMet begun.cfg begun.dev = true :=
  ⟨begun_atRest, begun_noFailure, rfl, by decide⟩

theorem witness_SetModeCompletes :
    AtRest begun ∧ NoFailure begun ∧ modePattern begun.cfg 4#3 = some 0x00C0#16 ∧ DeviceDefined begun ∧ begun.begun = true :=
  ⟨begun_atRest, begun_noFailure, by decide, begun_deviceDefined, rfl⟩

theorem witness_SetFrequencyCompletes :
    AtRest begun ∧ NoFailure begun ∧ checkFrequency begun.cfg 1 1000 = .ok (.bank1, 0x29F1#28) ∧ DeviceDefined begun ∧
    begun.begun = true ∧ declaresWriteMode begun.cfg begun.cr = true ∧ begun.dev.spaced = true ∧ pendingBank begun.dev.latch = none :=
  ⟨begun_atRest, begun_noFailure, by decide +kernel, begun_deviceDefined, rfl, by decide, rfl, rfl⟩

theorem witness_CommandsWriteOnlyTheirFields :
    cfgValid begun.cfg = true ∧ Accepting begun ∧ (∃ t, exec (.setMode 0#3) begun = .next t) ∧
    (∃ t, exec (.setActiveFrequency 2) begun = .next t) ∧ (∃ t, exec .resetCmd begun = .next t) ∧
    (∃ t, exec .beginCmd begun = .next t) ∧ (∃ t, exec (.setFrequency 2 0) begun = .next t) ∧
    (∃ t, exec (.transfer 0) begun = .next t) ∧ modePattern begun.cfg 0#3 = some 0#16 ∧
    (∃ t, exec (.setActiveFrequency 0) begun = .next t) ∧ (∃ t, exec (.setActiveFrequency 1) begun = .next t) :=
  ⟨by decide, begun_accepting, ⟨_, rfl⟩, ⟨_, rfl⟩, ⟨_, rfl⟩, ⟨_, rfl⟩, ⟨_, rfl⟩, ⟨_, rfl⟩, by decide,
    ⟨_, rfl⟩, ⟨_, rfl⟩⟩

theorem witness_SetModeLaw :
    cfgValid defaultCfg = true ∧ modePattern defaultCfg 1#3 = some 0x0002#16 ∧ modePattern defaultCfg 4#3 = some 0x00C0#16 := by
  decide

theorem witness_SetActiveFrequencyPairLaw : cfgValid defaultCfg = true := by decide

theorem witness_CandidateIsTheNearestInteger :
    cfgValid defaultCfg = true ∧ defaultCfg.rounding = .nearestTiesEven ∧ (0 : Rat) ≤ mkRat 390625 8388608 := by decide

theorem witness_CandidateIsMonotone :
    cfgValid defaultCfg = true ∧ defaultCfg.rounding = .nearestTiesEven ∧ (0 : Rat) ≤ 0 ∧ (0 : Rat) ≤ 1000 := by decide

theorem witness_ControlWordReachesTheDevice :
    begun.early = false ∧ timingMet begun.cfg begun.dev = true ∧ begun.dev.spaced = true ∧
    sentByController changingMode = true ∧ hasBits (ctrlWord 0x2000#14) (reservedMask begun.cfg) = false ∧
    hasBits (ctrlWord 0x2000#14) (maskReset begun.cfg) = false ∧ pendingBank begun.dev.latch = none := by decide

theorem witness_LsbWordIsHeld :
    (deviceAt .declared).early = false ∧ timingMet (deviceAt .declared).cfg (deviceAt .declared).dev = true ∧
    (deviceAt .declared).dev.spaced = true ∧ (deviceAt .declared).dev.latch = .declared := by decide

theorem witness_MsbWordLatchesTheFullWord :
    (deviceAt (.low .bank0 0#14)).early = false ∧
    timingMet (deviceAt (.low .bank0 0#14)).cfg (deviceAt (.low .bank0 0#14)).dev = true ∧
    (deviceAt (.low .bank0 0#14)).dev.spaced = true ∧ (deviceAt (.low .bank0 0#14)).dev.latch = .low .bank0 0#14 ∧
    (deviceAt (.low .bank1 9#14)).dev.latch = .low .bank1 9#14 := by decide

theorem witness_ReceivedWordsLeaveTheBlock :
    encode begun.cfg (.dwFreq1Msb 0x028F#14) = .word 0x828F#16 ∧
    ({ begun with rx := [.word 0xC123#16] } : State).fault = none ∧
    ({ begun with rx := [.malformed 3, .aborted] } : State).rx = .malformed 3 :: [.aborted] := by decide

theorem witness_EveryStepKeepsTheInvariant : Inv changingMode ∧ ∃ t, step changingMode = .next t := by
  refine ⟨{ valid := by decide, reserved := by decide, reservedActs := ?_, pcInRange := by decide, bounded := by decide,
            failed := fun h => absurd rfl h, running := fun _ => ?_ }, ⟨_, rfl⟩⟩
  · have h : changingMode.acts.all (fun a => match a with
        | .setCr v => !hasBits v (reservedMask changingMode.cfg)
        | _ => true) = true := by decide
    intro v hv
    simpa using List.all_eq_true.mp h _ hv
  · exact { dirs := rfl, synced := { running := rfl, clk := rfl, cs := rfl, data := rfl }, resetClears := by decide,
            clockReturns := by decide, selectReturns := by decide }

theorem witness_ConstructedInstancesMeetTheInvariant : cfgValid secondPhase = true := by decide

/-- An idle instance meets the invariant. -/
theorem witness_IdleInstanceIsClean : Inv begun ∧ begun.fault = none ∧ begun.acts = [] := by
  refine ⟨{ valid := by decide, reserved := by decide, reservedActs := fun v hv => ?_, pcInRange := by decide,
            bounded := by decide, failed := fun h => absurd rfl h, running := fun _ => ?_ }, rfl, rfl⟩
  · cases hv
  · exact { dirs := rfl, synced := { running := rfl, clk := rfl, cs := rfl, data := rfl }, resetClears := by decide,
            clockReturns := by decide, selectReturns := by decide }

theorem witness_NothingReadsTheShadowState :
    blockView { begun with ftw0 := some 5#28, begun := false, dev := { begun.dev with ctrl := 3#16 } } = blockView begun ∧
    (∃ t, step begun = .next t) ∧ (∃ f, step { begun with fault := some .cs } = .fault f) ∧
    (∃ r, step { begun with port := [bareCommand 6#3] } = .refused r) := ⟨rfl, ⟨_, rfl⟩, ⟨_, rfl⟩, ⟨_, rfl⟩⟩

theorem witness_ReceivedWordsMoveThePlace : ∃ t, exec (.dwFreq1Lsb 0#14) begun = .next t := ⟨_, rfl⟩

end Sys2Proof.Tests
end

/-! SUPPORT. The scope of a command: what a micro-action that completes does to each part of the state, what a step adds to the
observation, and how a command is presented. -/

namespace Sys2Proof.Proofs

open Sys2Proof.Machine Sys2Proof.Safety

/-! ### The effect of a micro-action, one lemma per part of the state -/

theorem applyAct_cr (a : Act) (s : State) : (applyAct a s).cr = crAfter s.cr [a] := by
  cases a <;> simp [applyAct, crAfter]

theorem applyAct_pins (a : Act) (s : State) : (applyAct a s).pins = pinsAfter s.pins [a] := by
  cases a <;> simp [applyAct, pinsAfter]

theorem applyAct_begun (a : Act) (s : State) : (applyAct a s).begun = (s.begun || (a == .setBegun)) := by
  cases a <;> simp [applyAct]

/-- Configuring a line sets its direction and no other (R42). -/
theorem dirSet_setDir (p q : Line) (d : Dirs) : dirSet p (setDir q d) = (dirSet p d || (q == p)) := by
  cases p <;> cases q <;> simp [dirSet, setDir]

theorem dirSet_applyAct (p : Line) (a : Act) (s : State) :
    dirSet p (applyAct a s).dirs = (dirSet p s.dirs || (a == .gpioDir p)) := by
  have beq_gpioDir (q : Line) : (Act.gpioDir q == Act.gpioDir p) = (q == p) := by
    rw [Bool.eq_iff_iff]; simp
  cases a with
  | gpioDir q => simp [applyAct, dirSet_setDir, beq_gpioDir]
  | gpioWrite | delay | setCr | setFtw | setBegun => simp [applyAct]

theorem ne_otherBank (c : Bank) : c ≠ otherBank c := by
  cases c <;> simp [otherBank]

/-- A micro-action that is no `FTW[c] <- v` leaves both shadow registers (R40). -/
theorem applyAct_ftw_of_ne_setFtw {a : Act} (h : ∀ c v, a ≠ .setFtw c v) (s : State) :
    (applyAct a s).ftw0 = s.ftw0 ∧ (applyAct a s).ftw1 = s.ftw1 := by
  cases a with
  | setFtw c v => exact absurd rfl (h c v)
  | gpioDir | gpioWrite | delay | setCr | setBegun => simp [applyAct]

/-! ### What `advance` leaves, and its two outcomes -/

@[simp] theorem advance_cfg (s : State) : (advance s).cfg = s.cfg := by unfold advance; split <;> rfl
@[simp] theorem advance_cr (s : State) : (advance s).cr = s.cr := by unfold advance; split <;> rfl
@[simp] theorem advance_ftw0 (s : State) : (advance s).ftw0 = s.ftw0 := by unfold advance; split <;> rfl
@[simp] theorem advance_ftw1 (s : State) : (advance s).ftw1 = s.ftw1 := by unfold advance; split <;> rfl
@[simp] theorem advance_pins (s : State) : (advance s).pins = s.pins := by unfold advance; split <;> rfl
@[simp] theorem advance_dirs (s : State) : (advance s).dirs = s.dirs := by unfold advance; split <;> rfl
@[simp] theorem advance_begun (s : State) : (advance s).begun = s.begun := by unfold advance; split <;> rfl
@[simp] theorem advance_fault (s : State) : (advance s).fault = s.fault := by unfold advance; split <;> rfl
@[simp] theorem advance_port (s : State) : (advance s).port = s.port := by unfold advance; split <;> rfl
@[simp] theorem advance_answers (s : State) : (advance s).answers = s.answers := by unfold advance; split <;> rfl
@[simp] theorem advance_dev (s : State) : (advance s).dev = s.dev := by unfold advance; split <;> rfl
@[simp] theorem advance_early (s : State) : (advance s).early = s.early := by unfold advance; split <;> rfl
@[simp] theorem ftwOf_advance (c : Bank) (s : State) : ftwOf c (advance s) = ftwOf c s := by cases c <;> simp [ftwOf]

/-- Before the last micro-action the sequencer moves on (R44). -/
theorem advance_of_lt {s : State} (h : s.pc + 1 < s.acts.length) : advance s = { s with pc := s.pc + 1 } := if_pos h

/-- After the last micro-action the command completes (R44). -/
theorem advance_of_last {s : State} (h : s.acts.length = s.pc + 1) : advance s = completeCommand s :=
  if_neg (by omega)

/-! ### A step that performs a micro-action which completes -/

/-- A micro-action completes when it asks no driver, or the driver completes its call (R151, R205). -/
def Completes (a : Act) (s : State) : Prop := actLine a = none ∨ nextAnswer s = .completed

/-- The state in which a micro-action that completes takes effect: a GPIO call has used up the driver's next answer (R205). -/
def answered (a : Act) (s : State) : State :=
  { s with answers := if actLine a = none then s.answers else s.answers.tail }

@[simp] theorem answered_cfg (a : Act) (s : State) : (answered a s).cfg = s.cfg := rfl
@[simp] theorem answered_cr (a : Act) (s : State) : (answered a s).cr = s.cr := rfl
@[simp] theorem answered_ftw0 (a : Act) (s : State) : (answered a s).ftw0 = s.ftw0 := rfl
@[simp] theorem answered_ftw1 (a : Act) (s : State) : (answered a s).ftw1 = s.ftw1 := rfl
@[simp] theorem answered_pins (a : Act) (s : State) : (answered a s).pins = s.pins := rfl
@[simp] theorem answered_dirs (a : Act) (s : State) : (answered a s).dirs = s.dirs := rfl
@[simp] theorem answered_begun (a : Act) (s : State) : (answered a s).begun = s.begun := rfl
@[simp] theorem answered_acts (a : Act) (s : State) : (answered a s).acts = s.acts := rfl
@[simp] theorem answered_pc (a : Act) (s : State) : (answered a s).pc = s.pc := rfl
@[simp] theorem answered_fault (a : Act) (s : State) : (answered a s).fault = s.fault := rfl
@[simp] theorem answered_port (a : Act) (s : State) : (answered a s).port = s.port := rfl
@[simp] theorem answered_trace (a : Act) (s : State) : (answered a s).trace = s.trace := rfl
@[simp] theorem answered_dev (a : Act) (s : State) : (answered a s).dev = s.dev := rfl
@[simp] theorem answered_early (a : Act) (s : State) : (answered a s).early = s.early := rfl
@[simp] theorem ftwOf_answered (c : Bank) (a : Act) (s : State) : ftwOf c (answered a s) = ftwOf c s := by cases c <;> rfl

theorem performAct_of_completes {a : Act} {s : State} (h : Completes a s) :
    performAct a s = applyAct a (answered a s) := by
  rcases performAct_cases a s with ⟨hl, he⟩ | ⟨p, hl, -, he⟩ | ⟨p, hl, hfail, -⟩
  · simp [he, answered, hl]
  · simp [he, answered, hl, takeAnswer]
  · simp [Completes, hl, hfail] at h

theorem step_of_completes {a : Act} {s : State} (hf : s.fault = none) (hr : s.rx = []) (ha : s.acts[s.pc]? = some a)
    (h : Completes a s) : step s = .next (advance (applyAct a (answered a s))) := by
  have hne : s.acts ≠ [] := by rintro h0; simp [h0] at ha
  have hgo : (applyAct a (answered a s)).fault = none := by simpa using hf
  rw [step, fetch_act hf hr hne]
  simp only [sequencerStep, ha, performAct_of_completes h, hgo]

/-- Settles O12: the step is `advance` after the effect (`step_of_completes`), `advance` leaves what the effect wrote, and
its two outcomes are the two last clauses. -/
theorem microActionTakesEffect : Obligations.MicroActionTakesEffect := by
  intro s a hf hr ha hc
  refine ⟨_, step_of_completes hf hr ha hc, by simpa using hf, ?cr, ?pins, fun p => ?dirs, ?ftw, fun h => ?ftwKept,
    ?begun, ?answers, by simp, by simp, by simp, ?dev, fun h => ?movesOn, fun h => ?completes⟩
  case cr => simp [applyAct_cr]
  case pins => simp [applyAct_pins]
  case dirs => simp [dirSet_applyAct]
  case ftw =>
    rintro c v rfl
    exact ⟨by simp [applyAct], by simp [applyAct, ftwOf_setFtw_other, ne_otherBank]⟩
  case ftwKept => simpa using applyAct_ftw_of_ne_setFtw h (answered a s)
  case begun => simp [applyAct_begun]
  case answers => simp [answered]
  case dev => simp [applyAct_dev]
  case movesOn => simp [advance_of_lt, applyAct_trace, h]
  case completes => simp [advance_of_last, applyAct_trace, h]

/-! ### What a step adds to the observation -/

@[simp] theorem statusesOf_nil : statusesOf [] = [] := rfl

@[simp] theorem statusesOf_append (xs ys : List Event) : statusesOf (xs ++ ys) = statusesOf xs ++ statusesOf ys :=
  List.filterMap_append

@[simp] theorem statusesOf_status (st : Status) : statusesOf [.status st] = [st] := rfl

@[simp] theorem statusesOf_fail (p : Line) : statusesOf [.fail p] = [] := rfl

/-- The event of a micro-action is no status (R15). -/
@[simp] theorem statusesOf_actEvent (a : Act) : statusesOf (actEvent a).toList = [] := by cases a <;> rfl

/-- From `s` to `t` the observation is only extended, without a status while a command stays in progress, and with exactly one when
the command in progress ends (R13, R69, R200). -/
def ReturnsStatusAtEnd (s t : State) : Prop :=
  ∃ new, t.trace = s.trace ++ new ∧ (t.acts ≠ [] → statusesOf new = []) ∧
    (s.acts ≠ [] → t.acts = [] → (statusesOf new).length = 1)

/-- No command ends, and no status is returned. -/
theorem returnsStatusAtEnd_of_goesOn {s t : State} {new : List Event} (ht : t.trace = s.trace ++ new)
    (hn : statusesOf new = []) (ha : s.acts ≠ [] → t.acts ≠ []) : ReturnsStatusAtEnd s t :=
  ⟨new, ht, fun _ => hn, fun hs h0 => absurd h0 (ha hs)⟩

/-- No command is in progress afterwards, and one status is returned. -/
theorem returnsStatusAtEnd_of_ended {s t : State} {new : List Event} (ht : t.trace = s.trace ++ new)
    (hn : (statusesOf new).length = 1) (h0 : t.acts = []) : ReturnsStatusAtEnd s t :=
  ⟨new, ht, fun hne => absurd h0 hne, fun _ _ => hn⟩

/-- A micro-action that completes adds its event, and after the last one the status OK (R44, R152). -/
theorem returnsStatusAtEnd_advance (a : Act) (s : State) : ReturnsStatusAtEnd s (advance (applyAct a s)) := by
  obtain ⟨-, he⟩ | ⟨-, he⟩ := advance_cases (applyAct a s) <;> rw [he]
  · exact returnsStatusAtEnd_of_goesOn (applyAct_trace a s) (statusesOf_actEvent a) (by simp)
  · exact returnsStatusAtEnd_of_ended (new := (actEvent a).toList ++ [.status .ok]) (by simp [applyAct_trace]) (by simp) rfl

theorem returnsStatusAtEnd_sequencerStep {s : State} (hf : s.fault = none) :
    ReturnsStatusAtEnd s (sequencerStep s) := by
  rcases sequencerStep_cases s hf with ⟨-, he⟩ | ⟨a, p, -, -, -, he⟩ | ⟨a, -, -, he⟩ | ⟨a, p, -, -, -, he⟩ <;> rw [he]
  · exact returnsStatusAtEnd_of_ended (completeCommand_trace s) rfl rfl
  · exact returnsStatusAtEnd_of_ended (new := [.fail p, .status (.hardwareIoFailure p)]) (by simp) rfl rfl
  · exact returnsStatusAtEnd_advance a s
  · exact returnsStatusAtEnd_advance a (takeAnswer s)

/-- A command that is presented returns a status only when it is turned away, and then none is in progress (R202). -/
theorem returnsStatusAtEnd_acceptCommand {c : Command} {f : Bool} {plan : Except Cause (List Act)} {s t : State}
    (h : acceptCommand c f plan s = .next t) : ReturnsStatusAtEnd s t := by
  obtain ⟨-, ⟨-, rfl⟩ | ⟨ha, cause, -, rfl⟩ | ⟨ha, acts, -, rfl⟩⟩ := acceptCommand_cases h
  · exact returnsStatusAtEnd_of_goesOn (List.append_nil _).symm rfl id
  · exact returnsStatusAtEnd_of_ended (raiseInvalid_trace cause s) rfl ha
  · exact returnsStatusAtEnd_of_goesOn (List.append_nil _).symm rfl (fun hne => absurd ha hne)

/-! ### Presenting a command -/

/-- The meaning of an instruction of the command port is to present its record, except for the reserved codes (R80, R94). -/
theorem exec_eq_acceptCommand {cfg : Cfg} {i : Instr} {c : Command} (s : State) (hc : commandOf cfg i = some c)
    (h6 : i ≠ .reserved6) (h7 : i ≠ .reserved7) : ∃ f plan, exec i s = acceptCommand c f plan s := by
  cases i with
  | transfer | setMode | setFrequency | setActiveFrequency => cases hc; exact ⟨_, _, rfl⟩
  | beginCmd => cases hc; exact ⟨false, .ok (beginActs s.cfg), rfl⟩
  | resetCmd => cases hc; exact ⟨false, .ok (resetActs s.cfg s.cr), rfl⟩
  | reserved6 => exact absurd rfl h6
  | reserved7 => exact absurd rfl h7
  | dwCtrl | dwFreq0Lsb | dwFreq0Msb | dwFreq1Lsb | dwFreq1Msb => cases hc

/-- While a command is in progress, the record that is presented waits at the head of the port (assumption 11). -/
theorem acceptCommand_waits {s : State} (hf : s.fault = none) (ha : s.acts ≠ []) (c : Command) (f : Bool)
    (plan : Except Cause (List Act)) : acceptCommand c f plan s = .next { s with port := c :: s.port } := by
  obtain ⟨a, as, h⟩ := List.exists_cons_of_ne_nil ha
  simp [acceptCommand, hf, h]

/-- Settles O28: every command's meaning presents its record, and a presented record waits. -/
theorem hostWaitsWhileACommandRuns : Obligations.HostWaitsWhileACommandRuns := by
  intro s i c hf ha hc h6 h7
  obtain ⟨f, plan, he⟩ := exec_eq_acceptCommand s hc h6 h7
  rw [he, acceptCommand_waits hf ha]

/-- A record never decodes to a device word (R81). -/
theorem exists_commandOf_decodeCommand (cfg : Cfg) (c : Command) : ∃ r, commandOf cfg (decodeCommand c) = some r := by
  unfold decodeCommand
  split <;> exact ⟨_, rfl⟩

/-- A record from the port that answers a next state has been presented: the reserved codes answer none (R94). -/
theorem exists_acceptCommand_of_exec {c : Command} {s t : State} (h : exec (decodeCommand c) s = .next t) :
    ∃ r f plan, acceptCommand r f plan s = .next t := by
  obtain ⟨r, hr⟩ := exists_commandOf_decodeCommand s.cfg c
  have h6 : decodeCommand c ≠ .reserved6 := by intro hd; rw [hd] at h; cases h
  have h7 : decodeCommand c ≠ .reserved7 := by intro hd; rw [hd] at h; cases h
  obtain ⟨f, plan, he⟩ := exec_eq_acceptCommand s hr h6 h7
  exact ⟨r, f, plan, he ▸ h⟩

/-- Settles O18, by the four things a step can do (`step_cases`): the device's part adds nothing, the sequencer and the presented
command keep `ReturnsStatusAtEnd`, and the idle block stays as it is. -/
theorem oneStatusWhenACommandEnds : Obligations.OneStatusWhenACommandEnds := by
  intro s t h
  obtain ⟨hf, ⟨e, rest, -, d, n, rfl⟩ | ⟨-, -, rfl⟩ | ⟨-, -, c, rest, -, he⟩ | ⟨-, -, -, rfl⟩⟩ := step_cases h
  · exact returnsStatusAtEnd_of_goesOn (List.append_nil _).symm rfl id
  · exact returnsStatusAtEnd_sequencerStep hf
  · obtain ⟨r, f, plan, ha⟩ := exists_acceptCommand_of_exec he
    exact returnsStatusAtEnd_acceptCommand (s := { s with port := rest }) ha
  · exact returnsStatusAtEnd_of_goesOn (List.append_nil _).symm rfl id

end Sys2Proof.Proofs

/-! SUPPORT. Bits of a register value: what setting and clearing a field does under a mask, and the fields of a valid layout. -/

namespace Sys2Proof.Proofs

open Sys2Proof.Machine Sys2Proof.Safety

/-! ### Setting and clearing bits, seen through a mask -/

/-- A register value shows nothing under a mask exactly when no set bit of it lies in the mask. -/
theorem hasBits_eq_false_iff {r k : Word} : hasBits r k = false ↔ ∀ i, (hi : i < 16) → r[i] = true → k[i] = false := by
  simp only [hasBits_eq_false, and_eq_zero_iff, Bool.and_eq_false_imp]

theorem hasBits_setBits {r m k : Word} (hr : hasBits r k = false) (hm : hasBits m k = false) :
    hasBits (setBits r m) k = false := by
  rw [hasBits_eq_false_iff] at *
  intro i hi h
  rw [setBits_getElem, Bool.or_eq_true] at h
  exact h.elim (hr i hi) (hm i hi)

theorem hasBits_clearBits {r k : Word} (m : Word) (hr : hasBits r k = false) : hasBits (clearBits r m) k = false := by
  rw [hasBits_eq_false_iff] at *
  intro i hi h
  rw [clearBits_getElem, Bool.and_eq_true] at h
  exact hr i hi h.1

@[simp] theorem hasBits_clearBits_self (r m : Word) : hasBits (clearBits r m) m = false := by
  rw [hasBits_eq_false_iff]
  intro i hi h
  rw [clearBits_getElem, Bool.and_eq_true, Bool.not_eq_true'] at h
  exact h.2

/-- Clearing bits that are not set changes nothing. -/
theorem clearBits_of_hasBits_eq_false {r m : Word} (h : hasBits r m = false) : clearBits r m = r := by
  rw [hasBits_eq_false_iff] at h
  ext i hi
  rw [clearBits_getElem]
  cases hr : r[i] with
  | false => rfl
  | true => simp [h i hi hr]

/-- Setting bits and clearing them again is clearing them. -/
theorem clearBits_setBits (r m : Word) : clearBits (setBits r m) m = clearBits r m := by
  ext i hi
  rw [clearBits_getElem, clearBits_getElem, setBits_getElem]
  cases r[i] <;> simp

/-! ### The fields of a valid layout -/

/-- The masks of fields at distinct positions share no bit. -/
theorem hasBits_fieldMask {p q : Nat} (h : p ≠ q) : hasBits (fieldMask p) (fieldMask q) = false :=
  hasBits_eq_false.mpr (fieldMask_and_fieldMask h)

/-- The positions that R32 keeps apart, as far as the commands ask for it. -/
theorem positions_distinct {cfg : Cfg} (h : ValidCfg cfg) :
    cfg.layout.b28 ≠ cfg.layout.hlb ∧ cfg.layout.b28 ≠ cfg.layout.reset ∧ cfg.layout.fselect ≠ cfg.layout.reset := by
  have hd := h.distinct
  simp only [layoutPositions, List.nodup_cons, List.mem_cons, not_or] at hd
  obtain ⟨⟨hhlb, -, -, hreset, -⟩, -, ⟨-, hfselect, -⟩, -⟩ := hd
  exact ⟨hhlb, hreset, hfselect⟩

theorem maskB28_disjoint_maskHlb {cfg : Cfg} (h : ValidCfg cfg) : hasBits (maskB28 cfg) (maskHlb cfg) = false :=
  let ⟨hne, _, _⟩ := positions_distinct h
  hasBits_fieldMask hne

theorem maskB28_disjoint_maskReset {cfg : Cfg} (h : ValidCfg cfg) : hasBits (maskB28 cfg) (maskReset cfg) = false :=
  let ⟨_, hne, _⟩ := positions_distinct h
  hasBits_fieldMask hne

theorem maskFselect_disjoint_maskReset {cfg : Cfg} (h : ValidCfg cfg) :
    hasBits (maskFselect cfg) (maskReset cfg) = false :=
  let ⟨_, _, hne⟩ := positions_distinct h
  hasBits_fieldMask hne

/-- A mask within the ten fields holds no reserved bit (R32). -/
theorem not_reserved_of_within {cfg : Cfg} {m : Word} (h : ∀ i, (hi : i < 16) → m[i] = true → (allFields cfg)[i] = true) :
    hasBits m (reservedMask cfg) = false := by
  rw [hasBits_eq_false_iff]
  intro i hi hm
  simp [reservedMask, h i hi hm]

theorem maskB28_not_reserved (cfg : Cfg) : hasBits (maskB28 cfg) (reservedMask cfg) = false :=
  not_reserved_of_within fun i hi h => by simp [allFields, nonModeFields, h]

theorem maskFselect_not_reserved (cfg : Cfg) : hasBits (maskFselect cfg) (reservedMask cfg) = false :=
  not_reserved_of_within fun i hi h => by simp [allFields, nonModeFields, h]

theorem maskReset_not_reserved (cfg : Cfg) : hasBits (maskReset cfg) (reservedMask cfg) = false :=
  not_reserved_of_within fun i hi h => by simp [allFields, nonModeFields, h]

/-- Bits 15 and 14 belong to no field (R32). -/
theorem reservedMask_getElem_of_ge {cfg : Cfg} (h : ValidCfg cfg) {i : Nat} (hi : i < 16) (hge : 14 ≤ i) :
    (reservedMask cfg)[i] = true := by
  have hr := h.inRange
  simp only [layoutPositions, List.forall_mem_cons] at hr
  simp [reservedMask, allFields, nonModeFields, maskB28, maskHlb, maskFselect, maskPselect, maskReset, maskSleep1,
    maskSleep12, maskOpbiten, maskDiv2, maskMode, fieldMask_getElem]
  omega

/-- A register value without reserved bits carries the tag of a control word (R32, R86). -/
theorem wordTag_of_not_reserved {cfg : Cfg} (h : ValidCfg cfg) {r : Word} (hr : hasBits r (reservedMask cfg) = false) :
    wordTag r = 0b00#2 := by
  have high (i : Nat) (hi : i < 16) (hge : 14 ≤ i) : r[i] = false := by
    by_contra hne
    have := hasBits_eq_false_iff.mp hr i hi (by simpa using hne)
    simp [reservedMask_getElem_of_ge h hi hge] at this
  ext i hi
  have := high (14 + i) (by omega) (by omega)
  simp [wordTag, BitVec.getLsbD_eq_getElem (show 14 + i < 16 by omega), this]

/-- A word is put together from its tag and its payload (R62). -/
theorem tag_append_payload (w : Word) : wordTag w ++ wordPayload w = w := by
  have h : w.toNat < 2 ^ 16 := w.isLt
  apply BitVec.eq_of_toNat_eq
  rw [tagged_toNat, wordTag, wordPayload, BitVec.extractLsb'_toNat, BitVec.extractLsb'_toNat, Nat.shiftRight_eq_div_pow]
  omega

theorem ctrlWord_wordPayload {w : Word} (h : wordTag w = 0b00#2) : ctrlWord (wordPayload w) = w := by
  rw [ctrlWord, ← h]
  exact tag_append_payload w

/-! ### The registers that the commands write -/

/-- The pattern of a mode lies within `MODE_MASK` (R35). -/
theorem pattern_within {cfg : Cfg} (h : ValidCfg cfg) {mode : BitVec 3} {p : Word} (hp : modePattern cfg mode = some p) :
    hasBits p (~~~ cfg.modeMask) = false :=
  hasBits_eq_false.mpr (h.patternsWithin p (List.mem_of_getElem? hp))

theorem modeMask_not_reserved {cfg : Cfg} (h : ValidCfg cfg) : hasBits cfg.modeMask (reservedMask cfg) = false :=
  hasBits_eq_false.mpr h.maskNoReserved

/-- `RESET` is no part of `MODE_MASK` (R35). -/
theorem modeMask_disjoint_maskReset {cfg : Cfg} (h : ValidCfg cfg) : hasBits cfg.modeMask (maskReset cfg) = false := by
  have hm := hasBits_eq_false.mpr h.maskNoField
  rw [hasBits_eq_false_iff] at hm ⊢
  intro i hi hb
  have := hm i hi hb
  simp_all [nonModeFields]

/-- SET_MODE shows nothing new under a mask that `MODE_MASK` does not meet (R162). -/
theorem hasBits_withMode {cfg : Cfg} {r p k : Word} (hp : hasBits p (~~~ cfg.modeMask) = false)
    (hk : hasBits cfg.modeMask k = false) (hr : hasBits r k = false) : hasBits (withMode cfg r p) k = false := by
  refine hasBits_setBits (hasBits_clearBits _ hr) ?_
  rw [hasBits_eq_false_iff] at *
  intro i hi h
  exact hk i hi (by simpa using hp i hi h)

/-- SET_ACTIVE_FREQUENCY shows nothing new under a mask without `FSELECT` (R165). -/
theorem hasBits_withActiveBank {cfg : Cfg} {r k : Word} (bank : Bank) (hk : hasBits (maskFselect cfg) k = false)
    (hr : hasBits r k = false) : hasBits (withActiveBank cfg r bank) k = false := by
  cases bank with
  | bank0 => exact hasBits_clearBits _ hr
  | bank1 => exact hasBits_setBits hr hk

/-- `B28` alone declares write mode: `HLB` and `RESET` are other fields (R155, R252). -/
theorem declaresWriteMode_maskB28 {cfg : Cfg} (h : ValidCfg cfg) : declaresWriteMode cfg (maskB28 cfg) = true := by
  have hin : cfg.layout.b28 < 14 := h.inRange _ (by simp [layoutPositions])
  have hself : hasBits (maskB28 cfg) (maskB28 cfg) = true := by
    simpa [hasBits, maskB28] using fieldMask_ne_zero (by omega)
  rw [declaresWriteMode, hself, maskB28_disjoint_maskHlb h, maskB28_disjoint_maskReset h]
  rfl

/-- Settles O6: a reserved bit is set in every word whose two top bits are not zero, and a frequency word's tag is its bank's,
which R89 keeps apart from `0b00` and from the other bank's. -/
theorem controllerWordsCarryTheirTags : Obligations.ControllerWordsCarryTheirTags := by
  intro cfg r bank half hv
  have h := ValidCfg.of_cfgValid hv
  have ht := h.tags
  simp only [tagsValid, Bool.and_eq_true, bne_iff_ne] at ht
  obtain ⟨⟨hne, h0⟩, h1⟩ := ht
  refine ⟨wordTag_of_not_reserved h, by simp, by simp, ?_, by simpa [freqTag] using hne⟩
  cases bank <;> simpa [freqTag]

end Sys2Proof.Proofs

/-! SUPPORT. The micro-actions of the commands: what a frame is made of, what each elaboration writes to `CR`, where it leaves the
lines, how long it is, and the inversion of `exec` and of construction. -/

namespace Sys2Proof.Proofs

open Sys2Proof.Machine Sys2Proof.Safety

/-! ### Registers and lines after a list of micro-actions -/

theorem crAfter_append (r : Word) (as bs : List Act) : crAfter r (as ++ bs) = crAfter (crAfter r as) bs := by
  induction as generalizing r with
  | nil => rfl
  | cons a as ih => cases a <;> exact ih _

theorem pinsAfter_append (pins : Pins) (as bs : List Act) :
    pinsAfter pins (as ++ bs) = pinsAfter (pinsAfter pins as) bs := by
  induction as generalizing pins with
  | nil => rfl
  | cons a as ih => cases a <;> exact ih _

theorem crAfter_cons (r : Word) (a : Act) (as : List Act) : crAfter r (a :: as) = crAfter (crAfter r [a]) as :=
  crAfter_append r [a] as

theorem pinsAfter_cons (pins : Pins) (a : Act) (as : List Act) :
    pinsAfter pins (a :: as) = pinsAfter (pinsAfter pins [a]) as :=
  pinsAfter_append pins [a] as

@[simp] theorem crAfter_setCr (r v : Word) (as : List Act) : crAfter r (.setCr v :: as) = crAfter v as := rfl
@[simp] theorem crAfter_delay (r : Word) (k : DelayKind) (as : List Act) : crAfter r (.delay k :: as) = crAfter r as := rfl
@[simp] theorem crAfter_setBegun (r : Word) (as : List Act) : crAfter r (.setBegun :: as) = crAfter r as := rfl
@[simp] theorem crAfter_setFtw (r : Word) (c : Bank) (t : TuningWord) (as : List Act) :
    crAfter r (.setFtw c t :: as) = crAfter r as := rfl
@[simp] theorem crAfter_nil (r : Word) : crAfter r [] = r := rfl

/-- Without a `CR <- v` the Control Register stays (R33). -/
theorem crAfter_of_no_setCr (r : Word) {as : List Act} (h : ∀ v, Act.setCr v ∉ as) : crAfter r as = r := by
  induction as with
  | nil => rfl
  | cons a as ih =>
    have hrest := ih fun v hv => h v (List.mem_cons_of_mem a hv)
    cases a with
    | setCr v => exact absurd List.mem_cons_self (h v)
    | gpioDir | gpioWrite | delay | setFtw | setBegun => exact hrest

/-- A micro-action that writes no level leaves the lines. -/
theorem pinsAfter_of_no_write {a : Act} (h : ∀ p l, a ≠ .gpioWrite p l) (pins : Pins) : pinsAfter pins [a] = pins := by
  cases a with
  | gpioWrite p l => exact absurd rfl (h p l)
  | gpioDir | delay | setCr | setFtw | setBegun => rfl

/-! ### The frame -/

/-- The bits of a word in the order in which its frame sends them (R63). -/
def sentBits (cfg : Cfg) (w : Word) : List Bool := (List.range 16).map (sentBit cfg w)

/-- The bit steps of a list of bits. -/
def bitSteps (cfg : Cfg) (bs : List Bool) : List Act := bs.flatMap (bitStep cfg)

theorem frame_eq (cfg : Cfg) (w : Word) :
    frame cfg w = .gpioWrite .cs false :: (bitSteps cfg (sentBits cfg w) ++ [.gpioWrite .cs true]) := by
  rw [bitSteps, sentBits, List.flatMap_map]
  rfl

/-- The micro-actions of a bit step write the clock and the data line, nothing else (R122, R123). -/
theorem mem_bitStep {cfg : Cfg} {b : Bool} {a : Act} (h : a ∈ bitStep cfg b) :
    ∃ p l, a = .gpioWrite p l ∧ p ≠ .cs := by
  obtain ⟨x, -, rfl⟩ := List.mem_map.mp h
  cases x <;> exact ⟨_, _, rfl, by simp⟩

theorem mem_bitSteps {cfg : Cfg} {bs : List Bool} {a : Act} (h : a ∈ bitSteps cfg bs) :
    ∃ p l, a = .gpioWrite p l ∧ p ≠ .cs := by
  obtain ⟨b, -, hb⟩ := List.mem_flatMap.mp h
  exact mem_bitStep hb

/-- A frame is made of writes (R121). -/
theorem mem_frame {cfg : Cfg} {w : Word} {a : Act} (h : a ∈ frame cfg w) : ∃ p l, a = .gpioWrite p l := by
  rw [frame_eq, List.mem_cons, List.mem_append, List.mem_singleton] at h
  rcases h with rfl | h | rfl
  · exact ⟨_, _, rfl⟩
  · obtain ⟨p, l, rfl, -⟩ := mem_bitSteps h
    exact ⟨p, l, rfl⟩
  · exact ⟨_, _, rfl⟩

@[simp] theorem setCr_notMem_frame (cfg : Cfg) (w v : Word) : Act.setCr v ∉ frame cfg w := by
  intro h
  obtain ⟨p, l, he⟩ := mem_frame h
  cases he

@[simp] theorem gpioDir_notMem_frame (cfg : Cfg) (w : Word) (p : Line) : Act.gpioDir p ∉ frame cfg w := by
  intro h
  obtain ⟨q, l, he⟩ := mem_frame h
  cases he

@[simp] theorem length_bitStep (cfg : Cfg) (b : Bool) : (bitStep cfg b).length = 3 := by
  rw [bitStep, List.length_map]
  cases cfg.cpha <;> rfl

@[simp] theorem length_frame (cfg : Cfg) (w : Word) : (frame cfg w).length = 50 := by
  simp [frame_eq, bitSteps, sentBits, List.length_flatMap, Function.comp_def]

@[simp] theorem crAfter_frame (r : Word) (cfg : Cfg) (w : Word) : crAfter r (frame cfg w) = r :=
  crAfter_of_no_setCr r (by simp)

/-- A bit step leaves the clock idle, its bit on the data line, and the select line as it was (R122, R123). -/
theorem pinsAfter_bitStep (cfg : Cfg) (b : Bool) (pins : Pins) :
    pinsAfter pins (bitStep cfg b) = { clk := .known cfg.cpol, data := .known b, cs := pins.cs } := by
  rw [bitStep]
  cases cfg.cpha <;> rfl

theorem pinsAfter_bitSteps (cfg : Cfg) (bs : List Bool) {pins : Pins} (hclk : pins.clk = .known cfg.cpol) :
    (pinsAfter pins (bitSteps cfg bs)).clk = .known cfg.cpol ∧ (pinsAfter pins (bitSteps cfg bs)).cs = pins.cs := by
  induction bs generalizing pins with
  | nil => exact ⟨hclk, rfl⟩
  | cons b bs ih =>
    rw [bitSteps, List.flatMap_cons, pinsAfter_append, pinsAfter_bitStep]
    exact ih rfl

/-- A frame leaves the clock idle and the select line high, wherever the clock was (R121, R125). -/
theorem pinsAfter_frame (cfg : Cfg) (w : Word) (pins : Pins) :
    (pinsAfter pins (frame cfg w)).clk = .known cfg.cpol ∧ (pinsAfter pins (frame cfg w)).cs = .known true := by
  have hfirst : sentBits cfg w = sentBit cfg w 0 :: (sentBits cfg w).tail := rfl
  rw [frame_eq, pinsAfter_cons, pinsAfter_append, hfirst, bitSteps, List.flatMap_cons, pinsAfter_append, pinsAfter_bitStep]
  exact ⟨(pinsAfter_bitSteps cfg _ rfl).1, rfl⟩

/-! ### The elaborations -/

/-- What an accepted command is elaborated into, from the register `r` (R130, R153, R156, R162, R165, R175). -/
inductive Elaborated (cfg : Cfg) (r : Word) : List Act → Prop where
  | transfer (w : Word) : Elaborated cfg r (frame cfg w)
  | beginCmd : Elaborated cfg r (beginActs cfg)
  | resetCmd : Elaborated cfg r (resetActs cfg r)
  | setMode {mode : BitVec 3} {p : Word} (hp : modePattern cfg mode = some p) :
      Elaborated cfg r (updateActs cfg (withMode cfg r p))
  | setActive (bank : Bank) : Elaborated cfg r (updateActs cfg (withActiveBank cfg r bank))
  | setFrequency (bank : Bank) (t : TuningWord) : Elaborated cfg r (frequencyActs cfg r bank t)

theorem planTransfer_ok {cfg : Cfg} {word : Int} {as : List Act} (h : planTransfer cfg word = .ok as) :
    ∃ w, as = frame cfg w := by
  unfold planTransfer at h
  split at h
  · cases h
  · cases h; exact ⟨_, rfl⟩

theorem planSetMode_ok {cfg : Cfg} {r : Word} {mode : BitVec 3} {as : List Act} (h : planSetMode cfg r mode = .ok as) :
    ∃ p, modePattern cfg mode = some p ∧ as = updateActs cfg (withMode cfg r p) := by
  unfold planSetMode checkMode at h
  cases hp : modePattern cfg mode with
  | none => simp [hp] at h
  | some p =>
    simp only [hp, Except.ok.injEq] at h
    exact ⟨p, rfl, h.symm⟩

theorem planSetActive_ok {cfg : Cfg} {r : Word} {channel : Int} {as : List Act} (h : planSetActive cfg r channel = .ok as) :
    ∃ bank, checkChannel channel = .ok bank ∧ as = updateActs cfg (withActiveBank cfg r bank) := by
  unfold planSetActive at h
  split at h
  · cases h
  · cases h; exact ⟨_, ‹_›, rfl⟩

theorem planSetFrequency_ok {cfg : Cfg} {r : Word} {channel : Int} {freq : Rat} {as : List Act}
    (h : planSetFrequency cfg r channel freq = .ok as) : ∃ bank t, as = frequencyActs cfg r bank t := by
  unfold planSetFrequency at h
  split at h
  · cases h
  · cases h; exact ⟨_, _, rfl⟩

/-- No command configures a direction (R42). -/
theorem gpioDir_notMem_elaborated {cfg : Cfg} {r : Word} {as : List Act} (h : Elaborated cfg r as) (p : Line) :
    Act.gpioDir p ∉ as := by
  cases h <;> simp [beginActs, resetActs, updateActs, frequencyActs, transmit]

theorem elaborated_ne_nil {cfg : Cfg} {r : Word} {as : List Act} (h : Elaborated cfg r as) : as ≠ [] := by
  cases h <;> simp [beginActs, resetActs, updateActs, frequencyActs, transmit, frame]

/-- No command has more than the 158 micro-actions of BEGIN (R44). -/
theorem length_elaborated_le {cfg : Cfg} {r : Word} {as : List Act} (h : Elaborated cfg r as) : as.length ≤ 158 := by
  cases h <;> simp [beginActs, resetActs, updateActs, frequencyActs, transmit]

/-- Every value that a command writes to `CR` is free of reserved bits, when `CR` is (R32, R34). -/
theorem not_reserved_of_mem_elaborated {cfg : Cfg} (hv : ValidCfg cfg) {r v : Word} {as : List Act}
    (h : Elaborated cfg r as) (hr : hasBits r (reservedMask cfg) = false) (ha : Act.setCr v ∈ as) :
    hasBits v (reservedMask cfg) = false := by
  have pulse {x : Word} (hx : hasBits x (reservedMask cfg) = false)
      (hm : v = setBits x (maskReset cfg) ∨ v = clearBits x (maskReset cfg)) : hasBits v (reservedMask cfg) = false := by
    rcases hm with rfl | rfl
    · exact hasBits_setBits hx (maskReset_not_reserved cfg)
    · exact hasBits_clearBits _ hx
  cases h with
  | transfer w => simp at ha
  | beginCmd =>
    simp [beginActs, resetActs, transmit] at ha
    rcases ha with rfl | ha
    · exact maskB28_not_reserved cfg
    · exact pulse (maskB28_not_reserved cfg) ha
  | resetCmd =>
    simp [resetActs, transmit] at ha
    exact pulse hr ha
  | setMode hp =>
    simp [updateActs, transmit] at ha
    subst ha
    exact hasBits_withMode (pattern_within hv hp) (modeMask_not_reserved hv) hr
  | setActive bank =>
    simp [updateActs, transmit] at ha
    subst ha
    exact hasBits_withActiveBank bank (maskFselect_not_reserved cfg) hr
  | setFrequency bank t => simp [frequencyActs, transmit] at ha

/-! ### The register after a whole command -/

@[simp] theorem crAfter_updateActs (cfg : Cfg) (r v : Word) : crAfter r (updateActs cfg v) = v := by
  simp [updateActs, transmit, crAfter_append]

@[simp] theorem crAfter_resetActs (cfg : Cfg) (r x : Word) : crAfter r (resetActs cfg x) = clearBits x (maskReset cfg) := by
  simp [resetActs, transmit, crAfter_append]

@[simp] theorem crAfter_beginActs (cfg : Cfg) (r : Word) :
    crAfter r (beginActs cfg) = clearBits (maskB28 cfg) (maskReset cfg) := by
  simp [beginActs, transmit, crAfter_append]

@[simp] theorem crAfter_frequencyActs (cfg : Cfg) (r x : Word) (bank : Bank) (t : TuningWord) :
    crAfter r (frequencyActs cfg x bank t) = r := by
  simp [frequencyActs, transmit, crAfter_append]

/-- `B28` is no part of `RESET`: BEGIN ends with `CR = B28` (R156). -/
theorem clearBits_maskB28_maskReset {cfg : Cfg} (h : ValidCfg cfg) : clearBits (maskB28 cfg) (maskReset cfg) = maskB28 cfg :=
  clearBits_of_hasBits_eq_false (maskB28_disjoint_maskReset h)

/-- A command ends with `RESET` clear, when it was clear before (R34). -/
theorem reset_clear_after_elaborated {cfg : Cfg} (hv : ValidCfg cfg) {r : Word} {as : List Act}
    (h : Elaborated cfg r as) (hr : hasBits r (maskReset cfg) = false) : hasBits (crAfter r as) (maskReset cfg) = false := by
  cases h with
  | transfer w => simpa
  | beginCmd => simp
  | resetCmd => simp
  | setMode hp => simpa using hasBits_withMode (pattern_within hv hp) (modeMask_disjoint_maskReset hv) hr
  | setActive bank => simpa using hasBits_withActiveBank bank (maskFselect_disjoint_maskReset hv) hr
  | setFrequency bank t => simpa

/-- After a list of micro-actions the clock is idle and the select line high, wherever they were (R125). -/
def LeavesIdle (cfg : Cfg) (as : List Act) : Prop :=
  ∀ pins, (pinsAfter pins as).clk = .known cfg.cpol ∧ (pinsAfter pins as).cs = .known true

theorem leavesIdle_append {cfg : Cfg} (as : List Act) {bs : List Act} (h : LeavesIdle cfg bs) : LeavesIdle cfg (as ++ bs) := by
  intro pins
  rw [pinsAfter_append]
  exact h _

theorem leavesIdle_cons {cfg : Cfg} (a : Act) {as : List Act} (h : LeavesIdle cfg as) : LeavesIdle cfg (a :: as) :=
  leavesIdle_append [a] h

theorem leavesIdle_concat {cfg : Cfg} {as : List Act} {a : Act} (h : LeavesIdle cfg as) (ha : ∀ p l, a ≠ .gpioWrite p l) :
    LeavesIdle cfg (as ++ [a]) := by
  intro pins
  rw [pinsAfter_append, pinsAfter_of_no_write ha]
  exact h pins

theorem leavesIdle_transmit (cfg : Cfg) (w : Word) : LeavesIdle cfg (transmit cfg w) :=
  leavesIdle_concat (pinsAfter_frame cfg w) (by simp)

theorem leavesIdle_resetActs (cfg : Cfg) (r : Word) : LeavesIdle cfg (resetActs cfg r) :=
  leavesIdle_cons _ (leavesIdle_append _ (leavesIdle_cons _ (leavesIdle_cons _ (leavesIdle_transmit cfg _))))

/-- Every command ends with the clock idle and the select line high (R125). -/
theorem leavesIdle_elaborated {cfg : Cfg} {r : Word} {as : List Act} (h : Elaborated cfg r as) : LeavesIdle cfg as := by
  cases h with
  | transfer w => exact pinsAfter_frame cfg w
  | beginCmd =>
    exact leavesIdle_cons _ (leavesIdle_append _ (leavesIdle_concat (leavesIdle_resetActs cfg _) (by simp)))
  | resetCmd => exact leavesIdle_resetActs cfg r
  | setMode | setActive => exact leavesIdle_cons _ (leavesIdle_transmit cfg _)
  | setFrequency bank t =>
    exact leavesIdle_append _ (leavesIdle_append _ (leavesIdle_concat (leavesIdle_transmit cfg _) (by simp)))

end Sys2Proof.Proofs

/-! SUPPORT. The inversion of `exec` and of construction, and the statements that need no more than a step's cases: the fetch, the
configuration, the directions, the registers and the fault. -/

namespace Sys2Proof.Proofs

open Sys2Proof.Machine Sys2Proof.Safety

/-! ### What an instruction does when it answers a next state -/

theorem exec_beginCmd (s : State) :
    exec .beginCmd s = acceptCommand (bareCommand 0b001#3) false (.ok (beginActs s.cfg)) s := rfl

theorem exec_resetCmd (s : State) :
    exec .resetCmd s = acceptCommand (bareCommand 0b010#3) false (.ok (resetActs s.cfg s.cr)) s := rfl

/-- A state that differs in nothing but the device and the count of free values, as an update of the state before. -/
theorem eq_update_of_only {s t : State} (h : { t with dev := s.dev, free := s.free } = s) :
    t = { s with dev := t.dev, free := t.free } :=
  congrArg (fun u : State => { u with dev := t.dev, free := t.free }) h

/-- The four things an instruction can do: the device takes a word, a record waits at the port, a command is turned away, or its
elaboration is loaded. -/
inductive ExecResult (s : State) : State → Prop where
  | device (d : Device) (n : Nat) : ExecResult s { s with dev := d, free := n }
  | waits (c : Command) : ExecResult s { s with port := c :: s.port }
  | rejected (cause : Cause) (ha : s.acts = []) : ExecResult s (raiseInvalid cause s)
  | loaded (f : Bool) {as : List Act} (ha : s.acts = []) (he : Elaborated s.cfg s.cr as) : ExecResult s (loadActs f as s)

theorem execResult_of_only {s t : State} (h : { t with dev := s.dev, free := s.free } = s) : ExecResult s t := by
  rw [eq_update_of_only h]
  exact .device _ _

theorem execResult_of_acceptCommand {c : Command} {f : Bool} {plan : Except Cause (List Act)} {s t : State}
    (hplan : ∀ as, plan = .ok as → Elaborated s.cfg s.cr as) (h : acceptCommand c f plan s = .next t) : ExecResult s t := by
  obtain ⟨-, ⟨-, rfl⟩ | ⟨ha, cause, -, rfl⟩ | ⟨ha, as, hp, rfl⟩⟩ := acceptCommand_cases h
  · exact .waits c
  · exact .rejected cause ha
  · exact .loaded f ha (hplan as hp)

theorem execResult_of_exec {i : Instr} {s t : State} (h : exec i s = .next t) : ExecResult s t := by
  cases i with
  | transfer word =>
    refine execResult_of_acceptCommand (fun as hp => ?_) h
    obtain ⟨w, rfl⟩ := planTransfer_ok hp
    exact .transfer w
  | beginCmd =>
    rw [exec_beginCmd] at h
    refine execResult_of_acceptCommand (fun as hp => ?_) h
    cases hp; exact .beginCmd
  | resetCmd =>
    rw [exec_resetCmd] at h
    refine execResult_of_acceptCommand (fun as hp => ?_) h
    cases hp; exact .resetCmd
  | setMode mode =>
    refine execResult_of_acceptCommand (fun as hp => ?_) h
    obtain ⟨p, hm, rfl⟩ := planSetMode_ok hp
    exact .setMode hm
  | setFrequency channel freq =>
    refine execResult_of_acceptCommand (fun as hp => ?_) h
    obtain ⟨bank, v, rfl⟩ := planSetFrequency_ok hp
    exact .setFrequency bank v
  | setActiveFrequency channel =>
    refine execResult_of_acceptCommand (fun as hp => ?_) h
    obtain ⟨bank, -, rfl⟩ := planSetActive_ok hp
    exact .setActive bank
  | reserved6 | reserved7 => cases h
  | dwCtrl fields => cases h; exact execResult_of_only (receiveCtrl_only _ s)
  | dwFreq0Lsb half | dwFreq1Lsb half => cases h; exact execResult_of_only (receiveLsb_only _ _ s)
  | dwFreq0Msb half | dwFreq1Msb half => cases h; exact execResult_of_only (receiveMsb_only _ _ s)

/-! ### Construction -/

theorem eq_performActs_of_construct {others : List Cfg} {cfg : Cfg} {answers : List DriverAnswer} {dev : Device} {free : Nat}
    {s : State} (h : construct others cfg answers dev free = .next s) :
    s = performActs (constructionActs cfg) (blankState cfg answers dev free) := by
  unfold construct at h
  split at h
  · split at h
    · cases h
    · cases h; rfl
  · cases h

/-- What every micro-action of a list keeps, the list keeps, wherever it ends (R206). -/
theorem performActs_keeps {P : State → Prop} {as : List Act} (hP : ∀ a ∈ as, ∀ s, P s → P (performAct a s)) {s : State}
    (hs : P s) : P (performActs as s) := by
  induction as generalizing s with
  | nil => exact hs
  | cons a as ih =>
    have ha := hP a List.mem_cons_self s hs
    unfold performActs
    split
    · exact ha
    · exact ih (fun b hb => hP b (List.mem_cons_of_mem a hb)) ha

@[simp] theorem performAct_cfg (a : Act) (s : State) : (performAct a s).cfg = s.cfg := by
  rcases performAct_cases a s with ⟨-, he⟩ | ⟨p, -, -, he⟩ | ⟨p, -, -, he⟩ <;> simp [he]

theorem performAct_cr_of_ne_setCr {a : Act} (h : ∀ v, a ≠ .setCr v) (s : State) : (performAct a s).cr = s.cr := by
  have hcr : crAfter s.cr [a] = s.cr := crAfter_of_no_setCr _ fun v hv => h v (List.mem_singleton.mp hv).symm
  rcases performAct_cases a s with ⟨-, he⟩ | ⟨p, -, -, he⟩ | ⟨p, -, -, he⟩ <;> simp [he, applyAct_cr, hcr]

/-- A direction that is set stays set (R42). -/
theorem dirSet_performAct {p : Line} {s : State} (a : Act) (h : dirSet p s.dirs = true) :
    dirSet p (performAct a s).dirs = true := by
  rcases performAct_cases a s with ⟨-, he⟩ | ⟨q, -, -, he⟩ | ⟨q, -, -, he⟩ <;> simp [he, dirSet_applyAct, h]

/-- A direction call that does not fail sets its direction (R42). -/
theorem dirSet_performAct_gpioDir {p : Line} {s : State} (h : (performAct (.gpioDir p) s).fault = none) :
    dirSet p (performAct (.gpioDir p) s).dirs = true := by
  rcases performAct_cases (.gpioDir p) s with ⟨hl, -⟩ | ⟨q, -, -, he⟩ | ⟨q, -, -, he⟩
  · cases hl
  · simp [he, dirSet_applyAct]
  · simp [he] at h

/-- A list of micro-actions that ends without a fault has set every direction that it configures (R42). -/
theorem dirSet_performActs {p : Line} {as : List Act} {s : State} (hf : (performActs as s).fault = none)
    (hp : Act.gpioDir p ∈ as) : dirSet p (performActs as s).dirs = true := by
  induction as generalizing s with
  | nil => cases hp
  | cons a as ih =>
    cases hfa : (performAct a s).fault with
    | some q => simp [performActs, hfa] at hf
    | none =>
      simp only [performActs, hfa] at hf ⊢
      rcases List.mem_cons.mp hp with rfl | hp
      · exact performActs_keeps (P := fun u => dirSet p u.dirs = true) (fun b _ _ hu => dirSet_performAct b hu)
          (dirSet_performAct_gpioDir hfa)
      · exact ih hf hp

/-- Settles O10: construction starts with `CR = 0` and performs no `CR <- v`. -/
theorem controlRegisterIsZeroAtConstruction : Obligations.ControlRegisterIsZeroAtConstruction := by
  intro others cfg answers dev free s h
  rw [eq_performActs_of_construct h]
  refine performActs_keeps (P := fun u => u.cr = 0x0000#16) (fun a ha u hu => ?_) rfl
  rw [performAct_cr_of_ne_setCr _ u, hu]
  rintro v rfl
  simp [constructionActs] at ha

/-! ### The fetch -/

/-- Settles O1, by the two ways an instruction is fetched. -/
theorem stepRunsTheFetchedInstruction : Obligations.StepRunsTheFetchedInstruction := by
  intro s i hf
  constructor
  · intro c rest hr ha hp hd
    cases hd
    simp only [step, fetch_command hf hr ha hp]
  · intro w rest hr hd
    simp only [step, fetch_received hf hr, fetchReceived, hd]

/-- Settles O2, by the two fetches of a step without a word to take. -/
theorem stepPerformsOrWaits : Obligations.StepPerformsOrWaits := by
  intro s hf hr
  exact ⟨fun ha => by simp only [step, fetch_act hf hr ha], fun ha hp => by simp only [step, fetch_idle hf hr ha hp]⟩

/-! ### The device's turn -/

/-- The device takes whatever it received in one step, and nothing else of the state changes (R46, R91). -/
theorem step_received {s : State} {e : Emission} {rest : List Emission} (hf : s.fault = none) (hr : s.rx = e :: rest) :
    ∃ t, step s = .next t ∧ { t with dev := s.dev, free := s.free } = { s with rx := rest } := by
  have hlost := loseDevice_only { s with rx := rest }
  simp only [step, fetch_received hf hr]
  cases e with
  | word w =>
    rcases hd : decodeWord s.cfg (pendingBank s.dev.latch) w with err | i
    · simp only [fetchReceived, decode, hd]
      exact ⟨_, rfl, hlost⟩
    · simp only [fetchReceived, decode, hd]
      exact exec_received { s with rx := rest } hd
  | malformed | aborted => exact ⟨_, rfl, hlost⟩

/-- Settles O55: every device word is `exec_received`'s, and every emission `step_received`'s. -/
theorem receivedWordsLeaveTheBlock : Obligations.ReceivedWordsLeaveTheBlock := by
  refine ⟨fun s i w hi => ?_, fun s e rest hf hr => step_received hf hr⟩
  cases i with
  | dwCtrl => exact ⟨_, rfl, receiveCtrl_only _ s⟩
  | dwFreq0Lsb | dwFreq1Lsb => exact ⟨_, rfl, receiveLsb_only _ _ s⟩
  | dwFreq0Msb | dwFreq1Msb => exact ⟨_, rfl, receiveMsb_only _ _ s⟩
  | transfer | beginCmd | resetCmd | setMode | setFrequency | setActiveFrequency | reserved6 | reserved7 => cases hi

/-! ### What no step changes, and what only a micro-action changes -/

theorem exec_cfg {i : Instr} {s t : State} (h : exec i s = .next t) : t.cfg = s.cfg := by
  cases execResult_of_exec h <;> simp

theorem sequencerStep_cfg (s : State) (hf : s.fault = none) : (sequencerStep s).cfg = s.cfg := by
  rcases sequencerStep_cases s hf with ⟨-, he⟩ | ⟨a, p, -, -, -, he⟩ | ⟨a, -, -, he⟩ | ⟨a, p, -, -, -, he⟩ <;> simp [he]

theorem step_cfg {s t : State} (h : step s = .next t) : t.cfg = s.cfg := by
  obtain ⟨hf, ⟨e, rest, -, d, n, rfl⟩ | ⟨-, -, rfl⟩ | ⟨-, -, c, rest, -, he⟩ | ⟨-, -, -, rfl⟩⟩ := step_cases h
  · rfl
  · exact sequencerStep_cfg s hf
  · exact exec_cfg (s := { s with port := rest }) he
  · rfl

/-- Settles O15: construction's micro-actions, an instruction and a step each keep the configuration. -/
theorem configurationNeverChanges : Obligations.ConfigurationNeverChanges := by
  refine ⟨fun others cfg answers dev free s h => ?_, fun i s t => exec_cfg, fun s t => step_cfg⟩
  rw [eq_performActs_of_construct h]
  exact performActs_keeps (P := fun u => u.cfg = cfg) (fun a _ u hu => by simpa using hu) rfl

/-- What a step does to the registers and the directions: it leaves them, or a micro-action takes effect, with or without an answer
of the driver used up, and `advance` follows. -/
inductive StepResult (s : State) : State → Prop where
  | kept {t : State} (hcr : t.cr = s.cr) (hftw0 : t.ftw0 = s.ftw0) (hftw1 : t.ftw1 = s.ftw1) (hbegun : t.begun = s.begun)
      (hdirs : t.dirs = s.dirs) : StepResult s t
  | performed {a : Act} (answers : List DriverAnswer) (ha : s.acts[s.pc]? = some a) :
      StepResult s (advance (applyAct a { s with answers := answers }))

theorem stepResult_of_step {s t : State} (h : step s = .next t) : StepResult s t := by
  obtain ⟨hf, ⟨e, rest, -, d, n, rfl⟩ | ⟨-, -, rfl⟩ | ⟨-, -, c, rest, -, he⟩ | ⟨-, -, -, rfl⟩⟩ := step_cases h
  · exact .kept rfl rfl rfl rfl rfl
  · rcases sequencerStep_cases s hf with ⟨-, he⟩ | ⟨a, p, -, -, -, he⟩ | ⟨a, ha, -, he⟩ | ⟨a, p, ha, -, -, he⟩ <;> rw [he]
    · exact .kept rfl rfl rfl rfl rfl
    · exact .kept rfl rfl rfl rfl rfl
    · exact .performed s.answers ha
    · exact .performed s.answers.tail ha
  · cases execResult_of_exec he <;> exact .kept rfl rfl rfl rfl rfl
  · exact .kept rfl rfl rfl rfl rfl

/-- Settles O17: only the performed micro-action can write a register, and each register has its own. -/
theorem registersChangeOnlyByTheirMicroAction : Obligations.RegistersChangeOnlyByTheirMicroAction := by
  intro s t h
  cases stepResult_of_step h with
  | kept hcr hftw0 hftw1 hbegun hdirs =>
    refine ⟨fun hne => absurd hcr hne, fun c hne => absurd ?_ hne, fun hne => absurd hbegun hne⟩
    cases c <;> assumption
  | @performed a answers ha =>
    rw [ha]
    cases a with
    | setCr v => simp [applyAct, ftwOf]
    | setFtw c v =>
      refine ⟨by simp [applyAct], fun d hne => ?_, by simp [applyAct]⟩
      obtain rfl : c = d := by
        by_contra hd
        refine hne ?_
        rw [ftwOf_advance, applyAct, ftwOf_setFtw_other c d v _ hd]
        cases d <;> rfl
      exact ⟨v, rfl, by simp [applyAct]⟩
    | setBegun => simp [applyAct, ftwOf]
    | gpioDir | gpioWrite | delay => simp [applyAct, ftwOf]

/-- Settles O16: a direction call sets its own direction; nothing clears one; no elaboration holds a direction call. -/
theorem directionsAreNeverCleared : Obligations.DirectionsAreNeverCleared := by
  refine ⟨fun s p q => ⟨fun hc => ?_, fun hc => ?_⟩, fun cfg answers dev free s h hf p => ?_, fun s t p h hp => ?_,
    fun i s t p ha h hp => ?_⟩
  · rw [performAct_completed rfl hc, dirSet_applyAct, takeAnswer_dirs]
    congr 1
    cases p <;> cases q <;> rfl
  · rw [performAct_failed rfl hc, raiseIoFailure_dirs, takeAnswer_dirs]
  · rw [eq_performActs_of_construct h] at hf ⊢
    exact dirSet_performActs hf (by cases p <;> simp [constructionActs])
  · cases stepResult_of_step h with
    | kept hcr hftw0 hftw1 hbegun hdirs => rwa [hdirs]
    | performed => simp [dirSet_applyAct, hp]
  · cases execResult_of_exec h with
    | loaded f _ he => exact gpioDir_notMem_elaborated he p hp
    | device | waits | rejected => simp [ha] at hp

/-! ### The fault -/

/-- Settles O14: the fault is set by `raiseIoFailure`, and the step and the acceptance of a command ask for it first. -/
theorem faultIsStickyAndTerminal : Obligations.FaultIsStickyAndTerminal := by
  refine ⟨fun cfg answers dev free => ⟨rfl, rfl⟩, fun s a p hl hc => ?_, fun s p hf => ⟨?_, ?_⟩, fun s c => emit_status _ s⟩
  · rw [performAct_failed hl hc, raiseIoFailure_fault]
  · simp only [step, fetch_failed hf]
  · have accepts_none (c : Command) (f : Bool) (plan : Except Cause (List Act)) :
        acceptCommand c f plan s = .fault (.instanceFailed p) := by simp [acceptCommand, hf]
    intro word channel mode freq
    rw [exec_beginCmd, exec_resetCmd]
    exact ⟨accepts_none _ _ _, accepts_none _ _ _, accepts_none _ _ _, accepts_none _ _ _, accepts_none _ _ _,
      accepts_none _ _ _⟩

end Sys2Proof.Proofs

/-! SUPPORT. The invariant: the block and the observer stay in step, a micro-action moves one place on in what remains, and a loaded
elaboration meets what the invariant asks of a command in progress. -/

namespace Sys2Proof.Proofs

open Sys2Proof.Machine Sys2Proof.Safety

/-! ### The observer follows the lines -/

/-- A selection write only moves the observer's select level, and starts or ends a frame (R128). -/
theorem observeSelect_lines (o : Observer) (l : Bool) :
    (observeSelect o l).1.cs = l ∧ (observeSelect o l).1.clk = o.clk ∧ (observeSelect o l).1.data = o.data ∧
      (observeSelect o l).1.stopped = o.stopped := by
  unfold observeSelect
  cases hcs : o.cs <;> cases l <;> simp [hcs]

/-- A clock write only moves the observer's clock level, and takes at most a sample (R128). -/
theorem observeClock_lines (cfg : Cfg) (fresh : Bool) (o : Observer) (l : Bool) :
    (observeClock cfg fresh o l).clk = l ∧ (observeClock cfg fresh o l).cs = o.cs ∧
      (observeClock cfg fresh o l).data = o.data ∧ (observeClock cfg fresh o l).stopped = o.stopped := by
  unfold observeClock
  split
  · simp_all
  · split <;> simp

theorem synced_applyAct {s : State} (a : Act) (h : Synced s) : Synced (applyAct a s) := by
  obtain ⟨hrun, hclk, hcs, hdata⟩ := h
  cases a with
  | gpioWrite p l =>
    cases p with
    | clk =>
      have ho := observeClock_lines s.cfg (Config.freeBit s.free) s.obs l
      constructor <;> simp [applyAct, setPin, observe, hrun, ho, hcs, hdata]
    | data => constructor <;> simp [applyAct, setPin, observe, hrun, hclk, hcs]
    | cs =>
      have ho := observeSelect_lines s.obs l
      constructor <;> simp [applyAct, setPin, observe, hrun, ho, hclk, hdata]
  | gpioDir | delay | setCr | setFtw | setBegun => constructor <;> simp [applyAct, hrun, hclk, hcs, hdata]

/-! ### What remains of the command in progress -/

theorem remaining_of_noActs {s : State} (h : s.acts = []) : remaining s = [] := by simp [remaining, h]

/-- What remains begins with the micro-action that `pc` points at (R44). -/
theorem remaining_eq_cons {s : State} {a : Act} (h : s.acts[s.pc]? = some a) :
    remaining s = a :: s.acts.drop (s.pc + 1) := by
  obtain ⟨hlt, ha⟩ := List.getElem?_eq_some_iff.mp h
  rw [remaining, List.drop_eq_getElem_cons hlt, ha]

@[simp] theorem remaining_loadActs (f : Bool) (as : List Act) (s : State) : remaining (loadActs f as s) = as := rfl

/-- After `advance` what remains is what stood behind the micro-action (R44). -/
theorem remaining_advance (s : State) : remaining (advance s) = s.acts.drop (s.pc + 1) := by
  rcases advance_cases s with ⟨-, he⟩ | ⟨hle, he⟩ <;> rw [he]
  · rfl
  · simp [remaining, List.drop_eq_nil_of_le hle]

theorem synced_completeCommand {s : State} (h : Synced s) : Synced (completeCommand s) := by
  obtain ⟨hrun, hclk, hcs, hdata⟩ := h
  constructor <;> simpa [completeCommand]

theorem synced_advance {s : State} (h : Synced s) : Synced (advance s) := by
  rcases advance_cases s with ⟨-, he⟩ | ⟨-, he⟩ <;> rw [he]
  · exact ⟨h.running, h.clk, h.cs, h.data⟩
  · exact synced_completeCommand h

/-! ### The invariant, operation by operation -/

/-- The invariant says nothing of the trace, the port, the driver, what was emitted, the device, `FTW`, `begun` and the model's own
fields. -/
theorem inv_of_same {s t : State} (h : Inv s) (hcfg : t.cfg = s.cfg) (hcr : t.cr = s.cr) (hacts : t.acts = s.acts)
    (hpc : t.pc = s.pc) (hfault : t.fault = s.fault) (hpins : t.pins = s.pins) (hdirs : t.dirs = s.dirs)
    (hobs : t.obs = s.obs) : Inv t := by
  have hrem : remaining t = remaining s := by rw [remaining, remaining, hacts, hpc]
  obtain ⟨valid, reserved, reservedActs, pcInRange, bounded, failed, running⟩ := h
  refine ⟨by rwa [hcfg], by rwa [hcfg, hcr], by rwa [hcfg, hacts], by rwa [hacts, hpc], by rwa [hacts],
    by rwa [hfault, hpins, hacts], fun hf => ?_⟩
  obtain ⟨dirs, ⟨hrun, hclk, hcs, hdata⟩, resetClears, clockReturns, selectReturns⟩ := running (hfault ▸ hf)
  exact ⟨by rwa [hdirs], ⟨by rwa [hobs], by rwa [hobs, hpins], by rwa [hobs, hpins], by rwa [hobs, hpins]⟩,
    by rwa [hcfg, hcr, hrem], by rwa [hcfg, hpins, hrem], by rwa [hpins, hrem]⟩

/-- A failed call leaves a FAILED block that knows no line and has no command in progress (R206). -/
theorem inv_raiseIoFailure {s : State} (p : Line) (h : Inv s) : Inv (raiseIoFailure p s) where
  valid := h.valid
  reserved := h.reserved
  reservedActs := by simp
  pcInRange := .inr ⟨rfl, rfl⟩
  bounded := Nat.zero_le _
  failed := fun _ => ⟨rfl, rfl⟩
  running := fun hf => by simp at hf

/-- A micro-action that takes effect moves one place on in what remains. -/
theorem inv_advance_applyAct {s : State} {a : Act} (h : Inv s) (ha : s.acts[s.pc]? = some a) (hf : s.fault = none) :
    Inv (advance (applyAct a s)) := by
  have hrem := remaining_eq_cons ha
  have hrem' : remaining (advance (applyAct a s)) = s.acts.drop (s.pc + 1) := by simp [remaining_advance]
  obtain ⟨dirs, synced, resetClears, clockReturns, selectReturns⟩ := h.running hf
  rw [hrem, crAfter_cons] at resetClears
  rw [hrem, pinsAfter_cons] at clockReturns selectReturns
  have hacts : (advance (applyAct a s)).acts = s.acts ∧ s.pc + 1 < s.acts.length ∧ (advance (applyAct a s)).pc = s.pc + 1 ∨
      (advance (applyAct a s)).acts = [] ∧ (advance (applyAct a s)).pc = 0 := by
    rcases advance_cases (applyAct a s) with ⟨hlt, he⟩ | ⟨-, he⟩ <;> rw [he]
    · exact .inl ⟨by simp, by simpa using hlt, by simp⟩
    · exact .inr ⟨rfl, rfl⟩
  refine ⟨by simpa using h.valid, ?reserved, fun v hv => ?reservedActs, ?pcInRange, ?bounded,
    fun hne => absurd (by simpa using hf) hne, fun _ => ⟨?dirs, ?synced, ?resetClears, ?clockReturns, ?selectReturns⟩⟩
  case reserved =>
    rw [advance_cr, advance_cfg, applyAct_cr, applyAct_cfg]
    cases a with
    | setCr v => exact h.reservedActs v (List.mem_of_getElem? ha)
    | gpioDir | gpioWrite | delay | setFtw | setBegun => exact h.reserved
  case reservedActs =>
    rcases hacts with ⟨he, -, -⟩ | ⟨he, -⟩ <;> rw [he] at hv
    · simpa using h.reservedActs v hv
    · cases hv
  case pcInRange =>
    rcases hacts with ⟨he, hlt, hpc⟩ | ⟨he, hpc⟩ <;> rw [he, hpc]
    · exact .inl hlt
    · exact .inr ⟨rfl, rfl⟩
  case bounded =>
    rcases hacts with ⟨he, -, -⟩ | ⟨he, -⟩ <;> rw [he]
    · exact h.bounded
    · exact Nat.zero_le _
  case dirs =>
    rw [advance_dirs]
    cases a <;> simp [applyAct, dirs]
  case synced => exact synced_advance (synced_applyAct a synced)
  case resetClears => rwa [hrem', advance_cr, advance_cfg, applyAct_cr, applyAct_cfg]
  case clockReturns => rwa [hrem', advance_pins, advance_cfg, applyAct_pins, applyAct_cfg]
  case selectReturns => rwa [hrem', advance_pins, applyAct_pins]

/-- The elaboration of a command, loaded into an idle block, meets what the invariant asks of it. -/
theorem inv_loadActs {s : State} {as : List Act} (f : Bool) (h : Inv s) (hf : s.fault = none)
    (h0 : s.acts = []) (he : Elaborated s.cfg s.cr as) : Inv (loadActs f as s) := by
  have hv := ValidCfg.of_cfgValid h.valid
  have hlen : 0 < as.length := List.length_pos_of_ne_nil (elaborated_ne_nil he)
  refine ⟨h.valid, h.reserved, fun v hm => not_reserved_of_mem_elaborated hv he h.reserved hm, .inl hlen,
    length_elaborated_le he, fun hne => absurd hf hne, fun _ => ?_⟩
  obtain ⟨dirs, ⟨hrun, hclk, hcs, hdata⟩, resetClears, -, -⟩ := h.running hf
  rw [remaining_of_noActs h0, crAfter_nil] at resetClears
  exact ⟨dirs, ⟨hrun, hclk, hcs, hdata⟩, reset_clear_after_elaborated hv he resetClears,
    (leavesIdle_elaborated he s.pins).1, (leavesIdle_elaborated he s.pins).2⟩

theorem inv_sequencerStep {s : State} (h : Inv s) (hf : s.fault = none) (hne : s.acts ≠ []) : Inv (sequencerStep s) := by
  have withAnswers (as : List DriverAnswer) : Inv { s with answers := as } :=
    inv_of_same h rfl rfl rfl rfl rfl rfl rfl rfl
  rcases sequencerStep_cases s hf with ⟨hnone, -⟩ | ⟨a, p, -, -, -, he⟩ | ⟨a, ha, -, he⟩ | ⟨a, p, ha, -, -, he⟩
  · have hlt : s.pc < s.acts.length := h.pcInRange.resolve_right fun ⟨h0, _⟩ => hne h0
    simp [hlt] at hnone
  · rw [he]
    exact inv_of_same (inv_raiseIoFailure p (withAnswers s.answers.tail)) rfl rfl rfl rfl rfl rfl rfl rfl
  · rw [he]
    exact inv_advance_applyAct h ha hf
  · rw [he]
    exact inv_advance_applyAct (withAnswers s.answers.tail) ha hf

/-- Settles O56, by the four things a step can do (`step_cases`). -/
theorem everyStepKeepsTheInvariant : Obligations.EveryStepKeepsTheInvariant := by
  intro s t h hs
  obtain ⟨hf, ⟨e, rest, -, d, n, rfl⟩ | ⟨-, hne, rfl⟩ | ⟨-, ha, c, rest, -, he⟩ | ⟨-, -, -, rfl⟩⟩ := step_cases hs
  · exact inv_of_same h rfl rfl rfl rfl rfl rfl rfl rfl
  · exact inv_sequencerStep h hf hne
  · have hrest : Inv { s with port := rest } := inv_of_same h rfl rfl rfl rfl rfl rfl rfl rfl
    cases execResult_of_exec he with
    | device | waits => exact inv_of_same hrest rfl rfl rfl rfl rfl rfl rfl rfl
    | rejected cause _ =>
      rw [raiseInvalid, emit_status]
      exact inv_of_same hrest rfl rfl rfl rfl rfl rfl rfl rfl
    | loaded f _ hel => exact inv_loadActs f hrest hf ha hel
  · exact h

/-- Settles O58: nothing remains of a command, so the invariant speaks of `CR` and of the lines as they are. -/
theorem idleInstanceIsClean : Obligations.IdleInstanceIsClean := by
  intro s h hf ha
  obtain ⟨-, -, resetClears, clockReturns, selectReturns⟩ := h.running hf
  rw [remaining_of_noActs ha] at resetClears clockReturns selectReturns
  exact ⟨h.reserved, resetClears, wordTag_of_not_reserved (ValidCfg.of_cfgValid h.valid) h.reserved, clockReturns,
    selectReturns⟩

end Sys2Proof.Proofs

/-! SUPPORT. What no event depends on: every operation carries states of one view (`blockView`) to states of one view. -/

namespace Sys2Proof.Proofs

open Sys2Proof.Machine Sys2Proof.Safety

/-! ### The observer without what it has accumulated -/

/-- The observer without the word it accumulates. -/
def observerView (o : Observer) : Observer := { o with acc := 0#16 }

/-- What an emission carries is forgotten: only that there is one stays. -/
def forget (_ : Emission) : Emission := .aborted

@[simp] theorem forget_comp_forget : forget ∘ forget = forget := rfl

theorem observerView_observeSelect (o : Observer) (l : Bool) :
    observerView (observeSelect o l).1 = observerView (observeSelect (observerView o) l).1 ∧
      (observeSelect o l).2.map forget = (observeSelect (observerView o) l).2.map forget := by
  have hcs : (observerView o).cs = o.cs := rfl
  unfold observeSelect
  rw [hcs]
  split
  · exact ⟨rfl, rfl⟩
  · split
    · have hforget (e : Emission) : forget e = .aborted := rfl
      simp [observerView, hforget]
    · exact ⟨rfl, rfl⟩

theorem observerView_observeClock (cfg : Cfg) (b c : Bool) (o : Observer) (l : Bool) :
    observerView (observeClock cfg b o l) = observerView (observeClock cfg c (observerView o) l) := by
  have hsample : takesSample cfg (observerView o) (.write .clk l) = takesSample cfg o (.write .clk l) := rfl
  have hclk : (observerView o).clk = o.clk := rfl
  unfold observeClock
  rw [hsample, hclk]
  cases l == o.clk <;> cases takesSample cfg o (.write .clk l) <;> rfl

/-- The lines, the count of samples and whether there is an emission depend neither on the accumulated bits nor on what a read of
`X` gives (R128). -/
theorem observerView_observe (cfg : Cfg) (b c : Bool) (o : Observer) (e : Event) :
    observerView (observe cfg b o e).1 = observerView (observe cfg c (observerView o) e).1 ∧
      (observe cfg b o e).2.map forget = (observe cfg c (observerView o) e).2.map forget := by
  have hstopped : (observerView o).stopped = o.stopped := rfl
  simp only [observe, hstopped]
  cases o.stopped with
  | true => exact ⟨rfl, rfl⟩
  | false =>
    cases e with
    | write p l =>
      cases p with
      | clk => exact ⟨observerView_observeClock cfg b c o l, rfl⟩
      | data => exact ⟨rfl, rfl⟩
      | cs => exact observerView_observeSelect o l
    | dir | delay | fail | status => exact ⟨rfl, rfl⟩

/-! ### Operations that respect the view -/

/-- An operation respects the view when what it leaves in the view depends on nothing outside it. -/
def RespectsView (f : State → State) : Prop :=
  ∀ s t, blockView s = blockView t → blockView (f s) = blockView (f t)

theorem blockView_blockView (s : State) : blockView (blockView s) = blockView s := by
  show ({ blockView s with rx := (s.rx.map forget).map forget } : State) = blockView s
  rw [List.map_map, forget_comp_forget]
  rfl

/-- What two states of one view have in common, as far as the operations ask for it. -/
structure SameFields (s t : State) : Prop where
  cfg : s.cfg = t.cfg
  cr : s.cr = t.cr
  acts : s.acts = t.acts
  pc : s.pc = t.pc
  fault : s.fault = t.fault
  port : s.port = t.port
  answers : s.answers = t.answers
  received : s.rx.map forget = t.rx.map forget

theorem sameFields {s t : State} (h : blockView s = blockView t) : SameFields s t where
  cfg := (congrArg State.cfg h :)
  cr := (congrArg State.cr h :)
  acts := (congrArg State.acts h :)
  pc := (congrArg State.pc h :)
  fault := (congrArg State.fault h :)
  port := (congrArg State.port h :)
  answers := (congrArg State.answers h :)
  received := (congrArg State.rx h :)

/-- It is enough that an operation leaves the same view of a state and of its view. -/
theorem respectsView_of_view {f : State → State} (h : ∀ s, blockView (f s) = blockView (f (blockView s))) : RespectsView f := by
  intro s t hst
  rw [h s, h t, hst]

theorem RespectsView.comp {f g : State → State} (hf : RespectsView f) (hg : RespectsView g) :
    RespectsView (fun s => f (g s)) := fun s t h => hf _ _ (hg s t h)

theorem respectsView_emit (e : Event) : RespectsView (emit e) := by
  refine respectsView_of_view fun s => ?_
  obtain ⟨hobs, hrx⟩ := observerView_observe s.cfg (Config.freeBit s.free) (Config.freeBit 0) s.obs e
  simp only [blockView, emit, State.mk.injEq, true_and, and_true]
  refine ⟨hobs, ?_⟩
  rw [List.map_append, List.map_append, List.map_map]
  congr 1
  have hlist := congrArg Option.toList hrx
  rwa [Option.toList_map, Option.toList_map] at hlist

theorem respectsView_loseDevice : RespectsView loseDevice := fun _ _ h => h

theorem respectsView_takeAnswer : RespectsView takeAnswer :=
  respectsView_of_view fun s => congrArg takeAnswer (blockView_blockView s).symm

theorem respectsView_raiseIoFailure (p : Line) : RespectsView (raiseIoFailure p) := by
  refine (respectsView_emit _).comp (g := fun s =>
    { emit (.fail p) s with pins := unknownPins, fault := some p, acts := [], pc := 0 }) fun s t h => ?_
  exact congrArg (fun u : State => { u with pins := unknownPins, fault := some p, acts := [], pc := 0 })
    (respectsView_emit (.fail p) s t h)

theorem respectsView_completeCommand : RespectsView completeCommand :=
  (respectsView_emit _).comp (g := fun s => { s with acts := [], pc := 0 })
    fun _ _ h => congrArg (fun u : State => { u with acts := [], pc := 0 }) h

theorem respectsView_loadActs (f : Bool) (as : List Act) : RespectsView (loadActs f as) :=
  fun _ _ h => congrArg (fun u : State => { u with acts := as, pc := 0 }) h

theorem respectsView_applyAct (a : Act) : RespectsView (applyAct a) := by
  cases a with
  | gpioDir p =>
    exact (respectsView_emit _).comp (g := fun s => { s with dirs := setDir p s.dirs })
      fun _ _ h => congrArg (fun u : State => { u with dirs := setDir p u.dirs }) h
  | gpioWrite p l =>
    exact (respectsView_emit _).comp (g := fun s => { s with pins := setPin p (.known l) s.pins })
      fun _ _ h => congrArg (fun u : State => { u with pins := setPin p (.known l) u.pins }) h
  | delay k => exact (respectsView_emit _).comp (g := spaceDevice k) (by cases k <;> exact fun _ _ h => h)
  | setCr v => exact fun _ _ h => congrArg (fun u : State => { u with cr := v }) h
  | setFtw c v => cases c <;> exact fun _ _ h => h
  | setBegun => exact fun _ _ h => h

/-- The choice between performing and failing is the driver's, whose answers are in the view (R205). -/
theorem respectsView_performAct (a : Act) : RespectsView (performAct a) := by
  intro s t h
  have hans : nextAnswer s = nextAnswer t := by rw [nextAnswer, nextAnswer, (sameFields h).answers]
  unfold performAct
  rw [hans]
  split
  · exact respectsView_applyAct a s t h
  · split
    · exact (respectsView_applyAct a).comp respectsView_takeAnswer s t h
    · exact (respectsView_raiseIoFailure _).comp respectsView_takeAnswer s t h

theorem respectsView_advance : RespectsView advance := by
  intro s t h
  have hpc := (sameFields h).pc
  have hacts := (sameFields h).acts
  by_cases hlt : s.pc + 1 < s.acts.length
  · rw [advance_of_lt hlt, advance_of_lt (hpc ▸ hacts ▸ hlt)]
    exact congrArg (fun u : State => { u with pc := u.pc + 1 }) h
  · have hle : ¬ t.pc + 1 < t.acts.length := hpc ▸ hacts ▸ hlt
    rw [advance, advance, if_neg hlt, if_neg hle]
    exact respectsView_completeCommand s t h

theorem respectsView_sequencerStep : RespectsView sequencerStep := by
  intro s t h
  have hnext : s.acts[s.pc]? = t.acts[t.pc]? := by rw [(sameFields h).acts, (sameFields h).pc]
  unfold sequencerStep
  rw [hnext]
  split
  · exact respectsView_completeCommand s t h
  · have hperf := respectsView_performAct ‹Act› s t h
    rw [(sameFields hperf).fault]
    split
    · exact respectsView_loseDevice _ _ hperf
    · exact respectsView_advance _ _ hperf

/-! ### Outcomes -/

/-- The view of an outcome. -/
def outcomeView : Host.Outcome State Fault Refusal → Host.Outcome State Fault Refusal
  | .next s => .next (blockView s)
  | .fault f => .fault f
  | .refused r => .refused r

/-- The validation and the elaboration of a command ask nothing but the configuration and `CR`. -/
theorem outcomeView_acceptCommand (c : Command) (f : Bool) (plan : Cfg → Word → Except Cause (List Act)) {s t : State}
    (h : blockView s = blockView t) :
    outcomeView (acceptCommand c f (plan s.cfg s.cr) s) = outcomeView (acceptCommand c f (plan t.cfg t.cr) t) := by
  have hplan : plan s.cfg s.cr = plan t.cfg t.cr := by rw [(sameFields h).cfg, (sameFields h).cr]
  rw [hplan]
  cases hf : s.fault with
  | some p => simp only [acceptCommand, hf, (sameFields h).fault ▸ hf]
  | none =>
    have hf' : t.fault = none := (sameFields h).fault ▸ hf
    by_cases ha : s.acts = []
    · have ha' : t.acts = [] := (sameFields h).acts ▸ ha
      rcases hp : plan t.cfg t.cr with cause | as
      · rw [acceptCommand_error hf ha rfl, acceptCommand_error hf' ha' rfl]
        exact congrArg Host.Outcome.next (respectsView_emit _ s t h)
      · rw [acceptCommand_ok hf ha rfl, acceptCommand_ok hf' ha' rfl]
        exact congrArg Host.Outcome.next (respectsView_loadActs f as s t h)
    · rw [acceptCommand_waits hf ha, acceptCommand_waits hf' ((sameFields h).acts ▸ ha)]
      exact congrArg (fun u : State => Host.Outcome.next { u with port := c :: u.port }) h

theorem outcomeView_exec (c : Command) {s t : State} (h : blockView s = blockView t) :
    outcomeView (exec (decodeCommand c) s) = outcomeView (exec (decodeCommand c) t) := by
  unfold decodeCommand
  split
  · exact outcomeView_acceptCommand _ false (fun cfg _ => planTransfer cfg c.word) h
  · exact outcomeView_acceptCommand _ false (fun cfg _ => .ok (beginActs cfg)) h
  · exact outcomeView_acceptCommand _ false (fun cfg r => .ok (resetActs cfg r)) h
  · exact outcomeView_acceptCommand _ true (fun cfg r => planSetMode cfg r c.mode) h
  · exact outcomeView_acceptCommand _ true (fun cfg r => planSetFrequency cfg r c.channel c.freq) h
  · exact outcomeView_acceptCommand _ true (fun cfg r => planSetActive cfg r c.channel) h
  · rfl
  · rfl

/-- The device's turn leaves the view of the rest (R46). -/
theorem outcomeView_step_received {s : State} {e : Emission} {rest : List Emission} (hf : s.fault = none)
    (hr : s.rx = e :: rest) : outcomeView (step s) = .next { blockView s with rx := rest.map forget } := by
  obtain ⟨t, hs, hsame⟩ := step_received hf hr
  rw [hs, eq_update_of_only (s := { s with rx := rest }) hsame]
  rfl

/-- A step's outcome, in the view, depends on the view alone. -/
theorem outcomeView_step {s t : State} (h : blockView s = blockView t) : outcomeView (step s) = outcomeView (step t) := by
  obtain ⟨-, -, hacts, -, hfault, hport, -, hrx⟩ := sameFields h
  cases hf : s.fault with
  | some p => simp only [step, fetch_failed hf, fetch_failed (hfault ▸ hf)]
  | none =>
    have hf' : t.fault = none := hfault ▸ hf
    rcases hr : s.rx with _ | ⟨e, rest⟩ <;> rcases hr' : t.rx with _ | ⟨e', rest'⟩ <;> simp [hr, hr'] at hrx
    · by_cases ha : s.acts = []
      · rcases hp : s.port with _ | ⟨c, rest⟩
        · simp only [step, fetch_idle hf hr ha hp, fetch_idle hf' hr' (hacts ▸ ha) (hport ▸ hp)]
          exact congrArg Host.Outcome.next h
        · simp only [step, fetch_command hf hr ha hp, fetch_command hf' hr' (hacts ▸ ha) (hport ▸ hp)]
          exact outcomeView_exec c (congrArg (fun u : State => { u with port := rest }) h)
      · simp only [step, fetch_act hf hr ha, fetch_act hf' hr' (hacts ▸ ha)]
        exact congrArg Host.Outcome.next (respectsView_sequencerStep s t h)
    · rw [outcomeView_step_received hf hr, outcomeView_step_received hf' hr', h, hrx.2]

theorem eq_of_outcomeView_fault {o : Host.Outcome State Fault Refusal} {f : Fault} (h : outcomeView o = .fault f) :
    o = .fault f := by
  cases o <;> simp_all [outcomeView]

theorem eq_of_outcomeView_refused {o : Host.Outcome State Fault Refusal} {r : Refusal} (h : outcomeView o = .refused r) :
    o = .refused r := by
  cases o <;> simp_all [outcomeView]

theorem exists_of_outcomeView_next {o : Host.Outcome State Fault Refusal} {u : State} (h : outcomeView o = .next u) :
    ∃ t, o = .next t ∧ blockView t = u := by
  cases o <;> simp_all [outcomeView]

/-- Settles O59: the two steps have one view (`outcomeView_step`), whatever the outcome. -/
theorem nothingReadsTheShadowState : Obligations.NothingReadsTheShadowState := by
  intro s t h
  have hstep := outcomeView_step h
  refine ⟨fun s' hs => ?_, fun f hs => ?_, fun r hs => ?_⟩ <;> rw [hs] at hstep
  · obtain ⟨t', ht, hv⟩ := exists_of_outcomeView_next hstep.symm
    exact ⟨t', ht, hv.symm⟩
  · exact eq_of_outcomeView_fault hstep.symm
  · exact eq_of_outcomeView_refused hstep.symm

end Sys2Proof.Proofs

/-! SUPPORT. A frame performed: what the observer accumulates over its bits, and the state in which it leaves the block. -/

namespace Sys2Proof.Proofs

open Sys2Proof.Machine Sys2Proof.Safety

/-! ### What the observer accumulates -/

/-- The accumulator after the samples of a list of bits, the first of which is sample number `n` (R128). -/
def accumulateAll (order : BitOrder) (acc : Word) (n : Nat) : List Bool → Word
  | [] => acc
  | b :: bs => accumulateAll order (accumulate order acc n b) (n + 1) bs

theorem accumulateAll_append (order : BitOrder) (acc : Word) (n : Nat) (bs cs : List Bool) :
    accumulateAll order acc n (bs ++ cs) = accumulateAll order (accumulateAll order acc n bs) (n + bs.length) cs := by
  induction bs generalizing acc n with
  | nil => rfl
  | cons b bs ih =>
    rw [List.cons_append, accumulateAll, ih, accumulateAll, List.length_cons]
    congr 1
    omega

/-- Which bits the accumulator holds after the first `k` samples of a word: its top `k` bits, moved down, or its low `k` bits. -/
def partWord (order : BitOrder) (w : Word) (k : Nat) : Word :=
  match order with
  | .msbFirst => w >>> (16 - k)
  | .lsbFirst => (w.setWidth k).setWidth 16

theorem partWord_zero (order : BitOrder) (w : Word) : partWord order w 0 = 0#16 := by
  cases order <;> ext i hi <;> simp [partWord]

theorem partWord_all (order : BitOrder) (w : Word) : partWord order w 16 = w := by
  cases order <;> simp [partWord]

theorem accumulate_partWord (order : BitOrder) (w : Word) {k : Nat} (hk : k < 16) :
    accumulate order (partWord order w k) k (w.getLsbD (bitIndex order k)) = partWord order w (k + 1) := by
  cases order with
  | msbFirst =>
    ext i hi
    cases i with
    | zero => simp [accumulate, partWord, bitIndex]
    | succ i =>
      have hpos : 16 - k + i = 15 - k + (i + 1) := by omega
      simp [accumulate, partWord, bitIndex, hpos]
  | lsbFirst =>
    ext i hi
    simp only [accumulate, partWord, bitIndex, BitVec.getElem_or, BitVec.getElem_setWidth, BitVec.getLsbD_setWidth,
      BitVec.getElem_shiftLeft, BitVec.getLsbD_ofBool]
    rcases Nat.lt_trichotomy i k with hlt | rfl | hgt
    · simp [hlt, Nat.lt_succ_of_lt hlt]
    · simp
    · have hsub : i - k ≠ 0 := by omega
      simp [hsub, Nat.not_lt.mpr (Nat.le_of_lt hgt), hgt]

/-- The samples of a word's bits, in the order in which a frame sends them, accumulate to the word (R129). -/
theorem accumulateAll_sentBits (cfg : Cfg) (w : Word) : accumulateAll cfg.order 0#16 0 (sentBits cfg w) = w := by
  have part (k : Nat) (hk : k ≤ 16) :
      accumulateAll cfg.order 0#16 0 ((List.range k).map (sentBit cfg w)) = partWord cfg.order w k := by
    induction k with
    | zero => exact (partWord_zero _ w).symm
    | succ k ih =>
      rw [List.range_succ, List.map_append, accumulateAll_append, ih (by omega)]
      simpa [accumulateAll, sentBit] using accumulate_partWord cfg.order w (by omega)
  rw [sentBits, part 16 le_rfl, partWord_all]

/-! ### The writes of a frame, recorded -/

theorem emit_write_data {s : State} (hrun : s.obs.stopped = false) (l : Bool) :
    emit (.write .data l) s = { s with trace := s.trace ++ [.write .data l], obs := { s.obs with data := .known l } } := by
  simp [emit, observe, samplesUnknown, takesSample, hrun]

/-- A clock write that is no sampling edge moves the observer's clock (R128). -/
theorem emit_write_clk {s : State} {l : Bool} (hrun : s.obs.stopped = false)
    (hs : takesSample s.cfg s.obs (.write .clk l) = false) :
    emit (.write .clk l) s = { s with trace := s.trace ++ [.write .clk l], obs := { s.obs with clk := l } } := by
  have ho : observeClock s.cfg (Config.freeBit s.free) s.obs l = { s.obs with clk := l } := by
    by_cases hl : l = s.obs.clk
    · simp [observeClock, hl]
    · simp [observeClock, hl, hs]
  simp [emit, observe, samplesUnknown, hs, hrun, ho]

/-- A sampling edge takes the known level of the data line into the accumulator (R128). -/
theorem emit_write_clk_sample {s : State} {l b : Bool} (hs : takesSample s.cfg s.obs (.write .clk l) = true)
    (hd : s.obs.data = .known b) :
    emit (.write .clk l) s =
      { s with
        trace := s.trace ++ [.write .clk l]
        obs := { s.obs with clk := l, acc := accumulate s.cfg.order s.obs.acc s.obs.n b, n := s.obs.n + 1 } } := by
  have hparts := hs
  simp only [takesSample, Bool.and_eq_true, Bool.not_eq_true', bne_iff_ne] at hparts
  obtain ⟨⟨⟨hrun, hl⟩, -⟩, -⟩ := hparts
  simp [emit, observe, observeClock, samplesUnknown, hs, hrun, hl, hd, levelBit]

/-- A fall of the select line starts a frame (R128). -/
theorem emit_write_cs_fall {s : State} (hrun : s.obs.stopped = false) (hcs : s.obs.cs = true) :
    emit (.write .cs false) s =
      { s with trace := s.trace ++ [.write .cs false], obs := { s.obs with cs := false, n := 0, acc := 0#16 } } := by
  simp [emit, observe, observeSelect, samplesUnknown, takesSample, hrun, hcs]

/-- A rise of the select line after 16 samples emits the word (R128). -/
theorem emit_write_cs_rise {s : State} (hrun : s.obs.stopped = false) (hcs : s.obs.cs = false) (hn : s.obs.n = 16) :
    emit (.write .cs true) s =
      { s with
        trace := s.trace ++ [.write .cs true], obs := { s.obs with cs := true }, rx := s.rx ++ [.word s.obs.acc] } := by
  simp [emit, observe, observeSelect, samplesUnknown, takesSample, hrun, hcs, hn]

/-! ### The events of a list of micro-actions -/

@[simp] theorem actEvents_append (as bs : List Act) : actEvents (as ++ bs) = actEvents as ++ actEvents bs :=
  List.filterMap_append
@[simp] theorem actEvents_nil : actEvents [] = [] := rfl
@[simp] theorem actEvents_setCr (v : Word) (as : List Act) : actEvents (.setCr v :: as) = actEvents as := rfl
@[simp] theorem actEvents_setFtw (c : Bank) (t : TuningWord) (as : List Act) :
    actEvents (.setFtw c t :: as) = actEvents as := rfl
@[simp] theorem actEvents_setBegun (as : List Act) : actEvents (.setBegun :: as) = actEvents as := rfl
@[simp] theorem actEvents_delay (k : DelayKind) (as : List Act) :
    actEvents (.delay k :: as) = .delay k :: actEvents as := rfl
@[simp] theorem actEvents_gpioWrite (p : Line) (l : Bool) (as : List Act) :
    actEvents (.gpioWrite p l :: as) = .write p l :: actEvents as := rfl
@[simp] theorem actEvents_frame (cfg : Cfg) (w : Word) : actEvents (frame cfg w) = frameEvents cfg w := rfl

theorem actEvents_singleton (a : Act) : actEvents [a] = (actEvent a).toList := by cases a <;> rfl

/-! ### The effect of a list of micro-actions -/

/-- The effect of micro-actions that all complete. -/
def applyActs (as : List Act) (s : State) : State := as.foldl (fun u a => applyAct a u) s

@[simp] theorem applyActs_nil (s : State) : applyActs [] s = s := rfl
@[simp] theorem applyActs_cons (a : Act) (as : List Act) (s : State) :
    applyActs (a :: as) s = applyActs as (applyAct a s) := rfl
theorem applyActs_append (as bs : List Act) (s : State) : applyActs (as ++ bs) s = applyActs bs (applyActs as s) :=
  List.foldl_append

/-- The observer in the middle of a frame, with the clock idle. -/
def midFrame (cfg : Cfg) (data : Level) (n : Nat) (acc : Word) : Observer :=
  { cs := false, clk := cfg.cpol, data := data, n := n, acc := acc, stopped := false }

/-- A bit step adds one sample of its bit (R122, R123, R128). -/
theorem applyActs_bitStep {s : State} {data : Level} {n : Nat} {acc : Word} (b : Bool)
    (ho : s.obs = midFrame s.cfg data n acc) :
    applyActs (bitStep s.cfg b) s =
      { s with
        pins := pinsAfter s.pins (bitStep s.cfg b)
        trace := s.trace ++ actEvents (bitStep s.cfg b)
        obs := midFrame s.cfg (.known b) (n + 1) (accumulate s.cfg.order acc n b) } := by
  cases hp : s.cfg.cpha with
  | first =>
    have hb : bitStep s.cfg b = [.gpioWrite .data b, .gpioWrite .clk (!s.cfg.cpol), .gpioWrite .clk s.cfg.cpol] := by
      simp [bitStep, bitTable, bitWriteAct, hp]
    simp [hb, applyAct, emit_write_data, emit_write_clk, emit_write_clk_sample (b := b), takesSample, edgeIsSampling, hp, ho,
      midFrame, pinsAfter]
  | second =>
    have hb : bitStep s.cfg b = [.gpioWrite .clk (!s.cfg.cpol), .gpioWrite .data b, .gpioWrite .clk s.cfg.cpol] := by
      simp [bitStep, bitTable, bitWriteAct, hp]
    simp [hb, applyAct, emit_write_data, emit_write_clk, emit_write_clk_sample (b := b), takesSample, edgeIsSampling, hp, ho,
      midFrame, pinsAfter]

theorem applyActs_bitSteps (bs : List Bool) {s : State} {n : Nat} {acc : Word}
    (ho : s.obs = midFrame s.cfg s.pins.data n acc) :
    applyActs (bitSteps s.cfg bs) s =
      { s with
        pins := pinsAfter s.pins (bitSteps s.cfg bs)
        trace := s.trace ++ actEvents (bitSteps s.cfg bs)
        obs := midFrame s.cfg (pinsAfter s.pins (bitSteps s.cfg bs)).data (n + bs.length)
          (accumulateAll s.cfg.order acc n bs) } := by
  induction bs generalizing s n acc with
  | nil =>
    have hid : { s with obs := midFrame s.cfg s.pins.data n acc } = s := by rw [← ho]
    simpa [bitSteps, accumulateAll, pinsAfter] using hid.symm
  | cons b bs ih =>
    have hsteps : bitSteps s.cfg (b :: bs) = bitStep s.cfg b ++ bitSteps s.cfg bs := List.flatMap_cons
    have hlen : n + (b :: bs).length = n + 1 + bs.length := by rw [List.length_cons]; omega
    rw [hsteps, applyActs_append, applyActs_bitStep b ho, pinsAfter_append, actEvents_append, hlen, ← List.append_assoc,
      pinsAfter_bitStep]
    exact ih (s := { s with
      pins := { clk := .known s.cfg.cpol, data := .known b, cs := s.pins.cs }
      trace := s.trace ++ actEvents (bitStep s.cfg b)
      obs := midFrame s.cfg (.known b) (n + 1) (accumulate s.cfg.order acc n b) }) rfl

/-- The observer after a frame of `w` (R128). -/
def afterFrame (cfg : Cfg) (data : Level) (w : Word) : Observer := { midFrame cfg data 16 w with cs := true }

/-- A frame performed with the clock idle and the select line high: the observer emits its word, and but for the lines and the
observation nothing changes (R121, R129). -/
theorem applyActs_frame {s : State} (w : Word) (hs : Synced s) (hclk : s.pins.clk = .known s.cfg.cpol)
    (hcs : s.pins.cs = .known true) :
    applyActs (frame s.cfg w) s =
      { s with
        pins := pinsAfter s.pins (frame s.cfg w)
        trace := s.trace ++ frameEvents s.cfg w
        obs := afterFrame s.cfg (pinsAfter s.pins (frame s.cfg w)).data w
        rx := s.rx ++ [.word w] } := by
  obtain ⟨hrun, hobsClk, hobsCs, hdata⟩ := hs
  have hclk' : s.obs.clk = s.cfg.cpol := by simpa [hclk] using hobsClk.symm
  have hcs' : s.obs.cs = true := by simpa [hcs] using hobsCs.symm
  have hbits := accumulateAll_sentBits s.cfg w
  have hselect : applyAct (.gpioWrite .cs false) s =
      { s with
        pins := setPin .cs (.known false) s.pins
        trace := s.trace ++ [.write .cs false]
        obs := midFrame s.cfg s.pins.data 0 0#16 } := by
    simp [applyAct, emit_write_cs_fall, hrun, hcs', midFrame, hclk', hdata]
  have hsteps := applyActs_bitSteps (sentBits s.cfg w) (s := applyAct (.gpioWrite .cs false) s) (n := 0) (acc := 0#16)
    (by rw [hselect]; rfl)
  rw [hselect] at hsteps
  have hlen : (sentBits s.cfg w).length = 16 := by simp [sentBits]
  simp only [frame_eq, applyActs_cons, applyActs_append, hselect, hsteps, applyActs_nil]
  rw [applyAct, emit_write_cs_rise rfl rfl (by simp [midFrame, hlen])]
  simp [afterFrame, midFrame, hlen, hbits, pinsAfter_append, frameEvents, frame_eq, pinsAfter, setPin]

end Sys2Proof.Proofs

/-! SUPPORT. A stretch of a command performed: a frame and the device's turn after it, a write of `CR` and a delay, put together by
`Performs.trans`, and the last micro-action, which completes the command. -/

namespace Sys2Proof.Proofs

open Sys2Proof.Machine Sys2Proof.Safety

/-! ### Micro-actions performed one after the other -/

theorem applyAct_withAnswers (a : Act) (ans : List DriverAnswer) (s : State) :
    applyAct a { s with answers := ans } = { applyAct a s with answers := ans } := by
  cases a with
  | setFtw c t => cases c <;> rfl
  | delay k => cases k <;> rfl
  | gpioDir | gpioWrite | setCr | setBegun => rfl

theorem applyAct_withPlace (a : Act) (n : Nat) (ans : List DriverAnswer) (s : State) :
    applyAct a { s with pc := n, answers := ans } = { applyAct a s with pc := n, answers := ans } := by
  rw [applyAct_withAnswers a ans { s with pc := n }, applyAct_withPc]

theorem applyActs_withPlace (as : List Act) (n : Nat) (ans : List DriverAnswer) (s : State) :
    applyActs as { s with pc := n, answers := ans } = { applyActs as s with pc := n, answers := ans } := by
  induction as generalizing s with
  | nil => rfl
  | cons a as ih =>
    rw [applyActs_cons, applyAct_withPlace, ih, applyActs_cons]

/-- Nothing is emitted but by a write of the select line (R128). -/
theorem applyAct_rx {a : Act} (h : ∀ l, a ≠ .gpioWrite .cs l) (s : State) : (applyAct a s).rx = s.rx := by
  cases a with
  | gpioWrite p l =>
    cases p with
    | clk | data => simp only [applyAct, emit_rx, observe]; split <;> simp
    | cs => exact absurd rfl (h l)
  | gpioDir | delay | setCr | setFtw | setBegun => simp [applyAct]

@[simp] theorem applyActs_acts (as : List Act) (s : State) : (applyActs as s).acts = s.acts := by
  induction as generalizing s with
  | nil => rfl
  | cons a as ih => rw [applyActs_cons, ih, applyAct_acts]

@[simp] theorem applyActs_fault (as : List Act) (s : State) : (applyActs as s).fault = s.fault := by
  induction as generalizing s with
  | nil => rfl
  | cons a as ih => rw [applyActs_cons, ih, applyAct_fault]

/-- One micro-action that is not the last, while no call fails. -/
theorem step_next {s : State} {a : Act} {rest : List Act} (hf : s.fault = none) (hr : s.rx = []) (hc : AllComplete s)
    (hrem : remaining s = a :: rest) (hne : rest ≠ []) :
    ∃ ans, (∀ x ∈ ans, x = DriverAnswer.completed) ∧
      step s = .next { applyAct a s with pc := s.pc + 1, answers := ans } := by
  have ha : s.acts[s.pc]? = some a := by
    rw [← List.head?_drop]
    exact (congrArg List.head? hrem :)
  have hlt : s.pc + 1 < s.acts.length := by
    have hlen := congrArg List.length hrem
    have hpos := List.length_pos_of_ne_nil hne
    simp only [remaining, List.length_drop, List.length_cons] at hlen
    omega
  have hstep := step_of_completes hf hr ha (.inr (nextAnswer_of_allComplete hc))
  rw [answered, applyAct_withAnswers, advance_of_lt (by simpa using hlt)] at hstep
  refine ⟨_, fun x hx => hc x ?_, by simpa using hstep⟩
  split at hx
  · exact hx
  · exact List.mem_of_mem_tail hx

/-- Micro-actions that do not touch the select line, while no call fails: nothing is emitted, so the device has no turn. -/
theorem run_silent {as rest : List Act} {s : State} (hf : s.fault = none) (hr : s.rx = []) (hc : AllComplete s)
    (hrem : remaining s = as ++ rest) (hne : rest ≠ []) (hsilent : ∀ a ∈ as, ∀ l, a ≠ .gpioWrite .cs l) :
    ∃ ans, (∀ x ∈ ans, x = DriverAnswer.completed) ∧
      Host.Core.run Sys2Proof.core as.length s = .next { applyActs as s with pc := s.pc + as.length, answers := ans } := by
  induction as generalizing s with
  | nil => exact ⟨s.answers, hc, rfl⟩
  | cons a as ih =>
    obtain ⟨ans, hans, hstep⟩ := step_next hf hr hc hrem (by simp [hne])
    have hrem' : remaining { applyAct a s with pc := s.pc + 1, answers := ans } = as ++ rest := by
      have htail := congrArg List.tail hrem
      rw [remaining, List.tail_drop] at htail
      simpa [remaining] using htail
    obtain ⟨ans', hans', hrun⟩ := ih (s := { applyAct a s with pc := s.pc + 1, answers := ans }) (by simpa using hf)
      (by simpa [applyAct_rx (hsilent a List.mem_cons_self)] using hr) hans hrem'
      (fun b hb => hsilent b (List.mem_cons_of_mem a hb))
    refine ⟨ans', hans', ?_⟩
    rw [List.length_cons, run_succ _ hstep, hrun, applyActs_withPlace]
    simp [Nat.add_assoc, Nat.add_comm 1]

theorem applyActs_rx {as : List Act} (h : ∀ a ∈ as, ∀ l, a ≠ .gpioWrite .cs l) (s : State) :
    (applyActs as s).rx = s.rx := by
  induction as generalizing s with
  | nil => rfl
  | cons a as ih =>
    rw [applyActs_cons, ih (fun b hb => h b (List.mem_cons_of_mem a hb)), applyAct_rx (h a List.mem_cons_self)]

/-- The block between two words: not FAILED, nothing for the device to take, a driver that fails no call, the clock idle and the
select line high (R125). -/
structure Ready (cfg : Cfg) (s : State) : Prop where
  config : s.cfg = cfg
  noFault : s.fault = none
  noReceived : s.rx = []
  noFailure : AllComplete s
  clk : s.pins.clk = .known cfg.cpol
  cs : s.pins.cs = .known true
  synced : Synced s

/-- The 50 micro-actions of a frame that is not the end of its command. -/
theorem run_frame {cfg : Cfg} {s : State} {w : Word} {rest : List Act} (h : Ready cfg s)
    (hrem : remaining s = frame cfg w ++ rest) (hne : rest ≠ []) :
    ∃ ans, (∀ x ∈ ans, x = DriverAnswer.completed) ∧
      Host.Core.run Sys2Proof.core 50 s = .next { applyActs (frame cfg w) s with pc := s.pc + 50, answers := ans } := by
  obtain ⟨rfl, hf, hr, hc, hclk, hcs, hs⟩ := h
  have hsilent : ∀ a ∈ bitSteps s.cfg (sentBits s.cfg w), ∀ l, a ≠ .gpioWrite .cs l := by
    rintro a ha l rfl
    obtain ⟨p, l', he, hp⟩ := mem_bitSteps ha
    cases he
    exact hp rfl
  have hlen : (bitSteps s.cfg (sentBits s.cfg w)).length = 48 := by
    have := length_frame s.cfg w
    rw [frame_eq] at this
    simpa using this
  have hcs' : s.obs.cs = true := by simpa [hcs] using hs.cs.symm
  have hrx : (applyAct (.gpioWrite .cs false) s).rx = [] := by
    simpa [applyAct, observe, observeSelect, hs.running, hcs'] using hr
  rw [frame_eq, List.cons_append, List.append_assoc] at hrem
  obtain ⟨ans1, hans1, hfall⟩ := step_next hf hr hc hrem (by simp)
  have hrem1 : s.acts.drop (s.pc + 1) = bitSteps s.cfg (sentBits s.cfg w) ++ (.gpioWrite .cs true :: rest) := by
    simpa [remaining] using congrArg List.tail hrem
  obtain ⟨ans2, hans2, hbits⟩ := run_silent (s := { applyAct (.gpioWrite .cs false) s with pc := s.pc + 1, answers := ans1 })
    (by simpa using hf) hrx hans1 (by simpa [remaining] using hrem1) (by simp) hsilent
  rw [applyActs_withPlace, hlen] at hbits
  have hrem2 : s.acts.drop (s.pc + 1 + 48) = .gpioWrite .cs true :: rest := by
    rw [← List.drop_drop, hrem1, ← hlen, List.drop_left]
  obtain ⟨ans3, hans3, hrise⟩ := step_next
    (s := { applyActs (bitSteps s.cfg (sentBits s.cfg w)) (applyAct (.gpioWrite .cs false) s) with
      pc := s.pc + 1 + 48, answers := ans2 })
    (by simpa using hf) (by rwa [applyActs_rx hsilent]) hans2 (by simpa [remaining] using hrem2) hne
  refine ⟨ans3, hans3, ?_⟩
  calc Host.Core.run Sys2Proof.core 50 s
      = Host.Core.run Sys2Proof.core (48 + 1) { applyAct (.gpioWrite .cs false) s with pc := s.pc + 1, answers := ans1 } :=
        run_succ (48 + 1) hfall
    _ = _ := run_add 1 hbits
    _ = _ := run_succ 0 hrise
    _ = _ := by rw [applyAct_withPlace, frame_eq, applyActs_cons, applyActs_append]; rfl

/-! ### The device's turn after a frame -/

/-- The durations that the device requires, which no word changes (R258). -/
structure SameTimes (s t : State) : Prop where
  setup : t.dev.setupTime = s.dev.setupTime
  settle : t.dev.settleTime = s.dev.settleTime

theorem sameTimes_of_exec {cfg : Cfg} {pending : Option Bank} {w : Word} {i : Instr} {s t : State}
    (hd : decodeWord cfg pending w = .ok i) (h : exec i s = .next t) : SameTimes s t := by
  rcases decodeWord_cases hd with rfl | rfl | rfl | rfl | rfl <;> cases h
  · obtain ⟨-, h1, h2, -⟩ := receiveCtrl_place (ctrlWord (wordPayload w)) s; exact ⟨h1, h2⟩
  · obtain ⟨-, h1, h2, -⟩ := receiveLsb_place .bank0 (wordPayload w) s; exact ⟨h1, h2⟩
  · obtain ⟨-, h1, h2, -⟩ := receiveMsb_place .bank0 (wordPayload w) s; exact ⟨h1, h2⟩
  · obtain ⟨-, h1, h2, -⟩ := receiveLsb_place .bank1 (wordPayload w) s; exact ⟨h1, h2⟩
  · obtain ⟨-, h1, h2, -⟩ := receiveMsb_place .bank1 (wordPayload w) s; exact ⟨h1, h2⟩

/-- The step in which the device takes a word: if the word is an instruction, that instruction runs, and in any case nothing changes
but the device and the count of free values. -/
theorem step_word {v : State} (w : Word) (hf : v.fault = none) (hr : v.rx = []) :
    ∃ d n, step { v with rx := [.word w] } = .next { v with dev := d, free := n } ∧
      SameTimes v { v with dev := d, free := n } ∧
      ∀ i, decodeWord v.cfg (pendingBank v.dev.latch) w = .ok i → exec i v = .next { v with dev := d, free := n } := by
  have hv : { v with rx := [] } = v := by rw [← hr]
  have hfetch : fetch { v with rx := [.word w] } = fetchReceived (.word w) v := by
    rw [fetch_received (s := { v with rx := [.word w] }) hf rfl]
    exact congrArg (fetchReceived (.word w)) hv
  simp only [step, hfetch]
  rcases hd : decodeWord v.cfg (pendingBank v.dev.latch) w with err | i
  · simp only [fetchReceived, decode, hd]
    exact ⟨_, _, rfl, ⟨rfl, rfl⟩, fun i hi => by cases hi⟩
  · obtain ⟨u, hu, hsame⟩ := exec_received v hd
    rw [eq_update_of_only hsame] at hu
    refine ⟨u.dev, u.free, by simpa only [fetchReceived, decode, hd] using hu, sameTimes_of_exec hd hu, fun j hj => ?_⟩
    cases hj
    exact hu

/-- The device has received `w` between `s` and `u`: it took it in a state `v` that agrees with `s` on all that the meaning of a word
asks for. -/
def DeviceReceives (s : State) (w : Word) (u : State) : Prop :=
  ∃ v, v.cfg = s.cfg ∧ v.early = s.early ∧ v.acts = s.acts ∧ v.dev = s.dev ∧
    ∀ i, decodeWord s.cfg (pendingBank s.dev.latch) w = .ok i → exec i v = .next u

/-! ### A stretch of a command -/

/-- From `s`, `n` steps perform the micro-actions `as` and leave `u` ready for the next word: what `as` writes is written, and the
rest of the block is as it was. -/
structure Performs (n : Nat) (as : List Act) (s u : State) : Prop where
  run : Host.Core.run Sys2Proof.core n s = .next u
  ready : Ready s.cfg u
  acts : u.acts = s.acts
  pc : u.pc = s.pc + as.length
  trace : u.trace = s.trace ++ actEvents as
  cr : u.cr = crAfter s.cr as
  ftw0 : u.ftw0 = s.ftw0
  ftw1 : u.ftw1 = s.ftw1
  begun : u.begun = s.begun
  dirs : u.dirs = s.dirs
  port : u.port = s.port
  early : u.early = s.early
  times : SameTimes s u

theorem Performs.trans {n m : Nat} {as bs : List Act} {s v u : State} (h : Performs n as s v) (k : Performs m bs v u) :
    Performs (n + m) (as ++ bs) s u where
  run := (run_add m h.run).trans k.run
  ready := h.ready.config ▸ k.ready
  acts := k.acts.trans h.acts
  pc := by rw [k.pc, h.pc, List.length_append, Nat.add_assoc]
  trace := by rw [k.trace, h.trace, actEvents_append, List.append_assoc]
  cr := by rw [k.cr, h.cr, crAfter_append]
  ftw0 := k.ftw0.trans h.ftw0
  ftw1 := k.ftw1.trans h.ftw1
  begun := k.begun.trans h.begun
  dirs := k.dirs.trans h.dirs
  port := k.port.trans h.port
  early := k.early.trans h.early
  times := ⟨k.times.setup.trans h.times.setup, k.times.settle.trans h.times.settle⟩

theorem Performs.remaining {n : Nat} {as rest : List Act} {s u : State} (h : Performs n as s u)
    (hrem : remaining s = as ++ rest) : remaining u = rest := by
  rw [Safety.remaining, h.acts, h.pc, ← List.drop_drop]
  exact (congrArg (List.drop as.length) hrem).trans List.drop_left

/-- The block after a frame of `w` whose word the device has taken. -/
def framed (w : Word) (ans : List DriverAnswer) (s : State) : State :=
  { s with
    pins := pinsAfter s.pins (frame s.cfg w)
    trace := s.trace ++ frameEvents s.cfg w
    obs := afterFrame s.cfg (pinsAfter s.pins (frame s.cfg w)).data w
    rx := []
    pc := s.pc + 50
    answers := ans }

/-- A frame that is not the end of its command, and the device's turn after it. -/
theorem performs_frame {cfg : Cfg} {s : State} {w : Word} {rest : List Act} (h : Ready cfg s)
    (hrem : remaining s = frame cfg w ++ rest) (hne : rest ≠ []) :
    ∃ u, Performs 51 (frame cfg w) s u ∧ DeviceReceives s w u := by
  obtain ⟨ans, hans, hrun⟩ := run_frame h hrem hne
  obtain ⟨rfl, hf, hr, hc, hclk, hcs, hs⟩ := h
  rw [applyActs_frame w hs hclk hcs, hr] at hrun
  obtain ⟨hclk', hcs'⟩ := pinsAfter_frame s.cfg w s.pins
  obtain ⟨d, n, hstep, htimes, hexec⟩ := step_word (v := framed w ans s) w hf rfl
  have hrun51 : Host.Core.run Sys2Proof.core 51 s = .next { framed w ans s with dev := d, free := n } :=
    (run_add 1 hrun).trans (run_succ 0 hstep)
  exact ⟨{ framed w ans s with dev := d, free := n },
    { run := hrun51, ready := ⟨rfl, hf, rfl, hans, hclk', hcs', ⟨rfl, hclk', hcs', rfl⟩⟩, acts := rfl,
      pc := by rw [length_frame]; rfl, trace := rfl, cr := (crAfter_frame s.cr s.cfg w).symm, ftw0 := rfl, ftw1 := rfl,
      begun := rfl, dirs := rfl, port := rfl, early := rfl, times := ⟨htimes.setup, htimes.settle⟩ },
    framed w ans s, rfl, rfl, rfl, rfl, hexec⟩

/-- A micro-action that is not the end of its command and writes nothing but `CR`, the observation and the device's mark of a
delay. -/
theorem performs_quiet {cfg : Cfg} {s : State} {a : Act} {b : Bool} {rest : List Act} (h : Ready cfg s)
    (hrem : remaining s = a :: rest) (hne : rest ≠ [])
    (ha : applyAct a s =
      { s with cr := crAfter s.cr [a], trace := s.trace ++ actEvents [a], dev := { s.dev with spaced := b } }) :
    ∃ u, Performs 1 [a] s u ∧ u.dev = { s.dev with spaced := b } := by
  obtain ⟨rfl, hf, hr, hc, hclk, hcs, ⟨hrun, hsclk, hscs, hdata⟩⟩ := h
  obtain ⟨ans, hans, hstep⟩ := step_next hf hr hc hrem hne
  rw [ha] at hstep
  exact ⟨_,
    { run := run_succ 0 hstep, ready := ⟨rfl, hf, hr, hans, hclk, hcs, ⟨hrun, hsclk, hscs, hdata⟩⟩, acts := rfl, pc := rfl,
      trace := rfl, cr := rfl, ftw0 := rfl, ftw1 := rfl, begun := rfl, dirs := rfl, port := rfl, early := rfl,
      times := ⟨rfl, rfl⟩ }, rfl⟩

/-- A write of `CR` that is not the end of its command. -/
theorem performs_setCr {cfg : Cfg} {s : State} {v : Word} {rest : List Act} (h : Ready cfg s)
    (hrem : remaining s = .setCr v :: rest) (hne : rest ≠ []) :
    ∃ u, Performs 1 [.setCr v] s u ∧ u.dev = s.dev :=
  performs_quiet (b := s.dev.spaced) h hrem hne (by simp [applyAct])

/-- A `Delay(WORD)` that is not the end of its command separates the next word from the one before it (R253). -/
theorem performs_delayWord {cfg : Cfg} {s : State} {rest : List Act} (h : Ready cfg s)
    (hrem : remaining s = .delay .word :: rest) (hne : rest ≠ []) :
    ∃ u, Performs 1 [.delay .word] s u ∧ u.dev = { s.dev with spaced := true } :=
  performs_quiet h hrem hne (by simp [applyAct, emit_delay, spaceDevice])

theorem performs_delaySettle {cfg : Cfg} {s : State} {rest : List Act} (h : Ready cfg s)
    (hrem : remaining s = .delay .settle :: rest) (hne : rest ≠ []) :
    ∃ u, Performs 1 [.delay .settle] s u ∧ u.dev = s.dev :=
  performs_quiet (b := s.dev.spaced) h hrem hne (by simp [applyAct, emit_delay])

/-- `CR <- v` and the frame of `v`: the stretch that RESET, BEGIN, SET_MODE and SET_ACTIVE_FREQUENCY are made of. -/
theorem performs_write {cfg : Cfg} {s : State} {v : Word} {rest : List Act} (h : Ready cfg s)
    (hrem : remaining s = .setCr v :: (frame cfg v ++ rest)) (hne : rest ≠ []) :
    ∃ u, Performs 52 (.setCr v :: frame cfg v) s u ∧ DeviceReceives s v u := by
  obtain ⟨s1, h1, hd1⟩ := performs_setCr h hrem (by simp [hne])
  have hr1 : Ready cfg s1 := h.config ▸ h1.ready
  obtain ⟨u, hu, x, hcfg, hearly, hacts, hdev, hexec⟩ := performs_frame hr1 (h1.remaining hrem) hne
  refine ⟨u, h1.trans hu, x, ?_, hearly.trans h1.early, hacts.trans h1.acts, hdev.trans hd1, ?_⟩
  · rw [hcfg, hr1.config, h.config]
  · rwa [hr1.config, ← h.config, hd1] at hexec

/-- A transmission that is not the end of its command: the frame, the device's turn and the inter-word delay (R150). -/
theorem performs_transmit {cfg : Cfg} {s : State} {w : Word} {rest : List Act} (h : Ready cfg s)
    (hrem : remaining s = transmit cfg w ++ rest) (hne : rest ≠ []) :
    ∃ x u, Performs 52 (transmit cfg w) s u ∧ DeviceReceives s w x ∧ u.dev = { x.dev with spaced := true } := by
  rw [transmit, List.append_assoc] at hrem
  obtain ⟨x, hx, hdev⟩ := performs_frame h hrem (by simp)
  obtain ⟨u, hu, hd⟩ := performs_delayWord hx.ready (hx.remaining hrem) hne
  exact ⟨x, u, hx.trans hu, hdev, hd⟩

/-! ### The end of a command -/

/-- A micro-action that ends a command without a call of the driver. -/
inductive Closing : Act → Prop where
  | delay (k : DelayKind) : Closing (.delay k)
  | setBegun : Closing .setBegun
  | setFtw (c : Bank) (t : TuningWord) : Closing (.setFtw c t)

theorem completedWith_of_performs {s v : State} {as : List Act} {a : Act} {f : Bool} {n : Nat} (hs : AtRest s)
    (h : Performs n as (loadActs f (as ++ [a]) s) v) (ha : Closing a) (hspaced : (applyAct a v).dev.spaced = true) :
    Host.Core.run Sys2Proof.core (n + 1) (loadActs f (as ++ [a]) s) = .next (completeCommand (applyAct a v)) ∧
      CompletedWith s (completeCommand (applyAct a v)) (actEvents (as ++ [a]) ++ [.status .ok]) := by
  obtain ⟨hcfg, hf, hr, hc, hclk, hcs, hsync⟩ := h.ready
  have hacts : v.acts = as ++ [a] := h.acts
  have hpc : v.pc = as.length := h.pc.trans (Nat.zero_add _)
  have hline : actLine a = none := by cases ha <;> rfl
  have hwrite : ∀ p l, a ≠ .gpioWrite p l := by cases ha <;> simp
  have hperf : performAct a v = applyAct a v := performAct_internal v hline
  have hstep : step v = .next (completeCommand (applyAct a v)) := by
    rw [← hperf]
    exact step_lastAct hf hr hc (by simp [hacts, hpc]) (by simp [hacts, hpc])
  have hpins : (applyAct a v).pins = v.pins := by rw [applyAct_pins, pinsAfter_of_no_write hwrite]
  have hrx : (completeCommand (applyAct a v)).rx = [] := by
    simpa [completeCommand, applyAct_rx (fun l => hwrite .cs l)] using hr
  have hdirs : (applyAct a v).dirs = v.dirs := by
    cases ha <;> simp [applyAct]
  refine ⟨(run_add 1 h.run).trans (run_succ 0 hstep),
    { trace := ?trace, atRest := ?atRest, noFailure := ?noFailure, cfg := ?cfg, dirs := ?dirs, port := ?port,
      spaced := hspaced }⟩
  case cfg => simpa using hcfg
  case dirs => simpa [hdirs] using h.dirs
  case port => simpa using h.port
  case noFailure => simpa [NoFailure, AllComplete] using hc
  case trace => simp [applyAct_trace, h.trace, actEvents_singleton]
  case atRest =>
    have hcfg' : (completeCommand (applyAct a v)).cfg = s.cfg := by simpa using hcfg
    exact
    { valid := hcfg' ▸ hs.valid, noFault := by simpa using hf, noActs := rfl, pcZero := rfl, noReceived := hrx,
      clk := by rw [completeCommand_pins, hpins, hcfg']; exact hclk, cs := hpins ▸ hcs,
      synced := synced_completeCommand (synced_applyAct a hsync) }

end Sys2Proof.Proofs

/-! SUPPORT. What the device holds after the words of a command: a control word, and the two halves of a tuning word. -/

namespace Sys2Proof.Proofs

open Sys2Proof.Machine Sys2Proof.Safety

/-! ### One received word -/

/-- A control word without reserved bits is taken, and only what the word disturbs is lost, where the premises of R250, R253 and R258
hold or a controller command sends the word (R46, R257). -/
theorem receiveCtrl_of_defined {s : State} {w : Word} (he : s.early = false) (ht : timingMet s.cfg s.dev = true)
    (hsep : s.dev.spaced = true ∨ sentByController s = true) (hres : hasBits w (reservedMask s.cfg) = false) :
    receiveCtrl w s =
      writeCtrl w (if crowded s || disturbsRegisters s.cfg s.dev.latch w then loseRegisters s else s) := by
  have hopen : deviceOpen s = false := by simp [deviceOpen, he, ht]
  have hsep' : (crowded s && !sentByController s) = false := by
    rcases hsep with h | h <;> simp [crowded, h]
  rw [receiveCtrl, hopen, hres, hsep']
  simp only [Bool.or_self, Bool.false_eq_true, if_false]
  split <;> rfl

/-- What a control word leaves in the device where it is taken: itself, the write mode that it declares, and the other registers
unless it disturbs them. -/
structure TakesControl (cfg : Cfg) (w : Word) (d d' : Device) : Prop where
  ctrl : d'.ctrl = w
  latch : d'.latch = if declaresWriteMode cfg w then .declared else .closed
  registers : d.spaced = true → hasBits w (maskReset cfg) = false → pendingBank d.latch = none →
    d'.freq0 = d.freq0 ∧ d'.freq1 = d.freq1 ∧ d'.phase0 = d.phase0 ∧ d'.phase1 = d.phase1

theorem takesControl_receiveCtrl {s : State} {w : Word} (he : s.early = false) (ht : timingMet s.cfg s.dev = true)
    (hsep : s.dev.spaced = true ∨ sentByController s = true) (hres : hasBits w (reservedMask s.cfg) = false) :
    TakesControl s.cfg w s.dev (receiveCtrl w s).dev := by
  rw [receiveCtrl_of_defined he ht hsep hres]
  refine ⟨rfl, ?_, fun hspaced hreset hpending => ?_⟩
  · split <;> rfl
  · rw [if_neg (by simp [crowded, disturbsRegisters, hspaced, hreset, hpending])]
    exact ⟨rfl, rfl, rfl, rfl⟩

/-- Settles O51: `takesControl_receiveCtrl`, for the word put together from the fields. -/
theorem controlWordReachesTheDevice : Obligations.ControlWordReachesTheDevice := by
  intro s fields he ht hsep hres
  obtain ⟨hctrl, hlatch, hregs⟩ := takesControl_receiveCtrl he ht hsep hres
  exact ⟨_, rfl, hctrl, hlatch, hregs⟩

theorem decodeWord_of_not_reserved {cfg : Cfg} (hv : ValidCfg cfg) {w : Word} (pending : Option Bank)
    (hres : hasBits w (reservedMask cfg) = false) : decodeWord cfg pending w = .ok (.dwCtrl (wordPayload w)) := by
  rw [decodeWord, if_pos (wordTag_of_not_reserved hv hres)]

theorem decodeWord_freqWord {cfg : Cfg} (ht : tagsValid cfg = true) (pending : Option Bank) (bank : Bank) (half : Half) :
    decodeWord cfg pending (freqWord cfg bank half) = .ok (frequencyInstr pending bank half) := by
  simp only [tagsValid, Bool.and_eq_true, bne_iff_ne] at ht
  obtain ⟨⟨hne, h0⟩, h1⟩ := ht
  cases bank with
  | bank0 => simp [decodeWord, freqTag, h0]
  | bank1 => simp [decodeWord, freqTag, h1, hne.symm]

theorem exec_frequencyInstr_first {pending : Option Bank} {bank : Bank} (h : pending ≠ some bank) (half : Half) (s : State) :
    exec (frequencyInstr pending bank half) s = .next (receiveLsb bank half s) := by
  cases bank <;> rw [frequencyInstr, if_neg h] <;> rfl

theorem exec_frequencyInstr_second (bank : Bank) (half : Half) (s : State) :
    exec (frequencyInstr (some bank) bank half) s = .next (receiveMsb bank half s) := by
  cases bank <;> rfl

theorem receiveLsb_of_declared {s : State} (bank : Bank) (half : Half) (hopen : deviceOpen s = false)
    (hspaced : s.dev.spaced = true) (hlatch : s.dev.latch = .declared) :
    receiveLsb bank half s = { s with dev := { s.dev with latch := .low bank half, spaced := false } } := by
  simp [receiveLsb, hopen, crowded, hspaced, hlatch]

theorem receiveMsb_of_low {s : State} {bank : Bank} {lsb : Half} (half : Half) (hopen : deviceOpen s = false)
    (hspaced : s.dev.spaced = true) (hlatch : s.dev.latch = .low bank lsb) :
    receiveMsb bank half s = { s with dev := latchFreq bank (joinHalves half lsb) s.dev } := by
  simp [receiveMsb, hopen, crowded, hspaced, hlatch]

/-- The two halves of a tuning word, joined, are the word (R172). -/
theorem joinHalves_halves (t : TuningWord) : joinHalves (msbHalf t) (lsbHalf t) = t := by
  have ht : t.toNat < 2 ^ 28 := t.isLt
  have hl : (lsbHalf t).toNat < 2 ^ 14 := (lsbHalf t).isLt
  apply BitVec.eq_of_toNat_eq
  rw [joinHalves, BitVec.toNat_append, ← Nat.shiftLeft_add_eq_or_of_lt hl, Nat.shiftLeft_eq, msbHalf, lsbHalf,
    BitVec.extractLsb'_toNat, BitVec.extractLsb'_toNat, Nat.shiftRight_eq_div_pow]
  omega

@[simp] theorem devFreq_latchFreq_self (bank : Bank) (t : TuningWord) (d : Device) : devFreq bank (latchFreq bank t d) = t := by
  cases bank <;> rfl

@[simp] theorem devFreq_latchFreq_other (bank : Bank) (t : TuningWord) (d : Device) :
    devFreq (otherBank bank) (latchFreq bank t d) = devFreq (otherBank bank) d := by
  cases bank <;> rfl

@[simp] theorem latchFreq_ctrl (bank : Bank) (t : TuningWord) (d : Device) : (latchFreq bank t d).ctrl = d.ctrl := by
  cases bank <;> rfl

/-! ### The words of a command in progress -/

/-- The device takes the words of the command in progress with the effect the spec states: the premises of R250 and R258. -/
structure Hearing (cfg : Cfg) (s : State) : Prop where
  valid : ValidCfg cfg
  config : s.cfg = cfg
  notEarly : s.early = false
  timing : timingMet s.cfg s.dev = true
  inProgress : s.acts ≠ []

theorem timingMet_congr {s u : State} (hcfg : u.cfg = s.cfg) (h : SameTimes s u) :
    timingMet u.cfg u.dev = timingMet s.cfg s.dev := by
  rw [timingMet, timingMet, hcfg, h.setup, h.settle]

theorem Performs.hearing {n : Nat} {as : List Act} {cfg : Cfg} {s u : State} (h : Performs n as s u) (k : Hearing cfg s) :
    Hearing cfg u where
  valid := k.valid
  config := h.ready.config.trans k.config
  notEarly := h.early.trans k.notEarly
  timing := (timingMet_congr h.ready.config h.times).trans k.timing
  inProgress := h.acts ▸ k.inProgress

theorem Hearing.notOpen {cfg : Cfg} {s : State} (h : Hearing cfg s) : deviceOpen s = false := by
  simp [deviceOpen, h.notEarly, h.timing]

theorem deviceOpen_congr {s v : State} (hcfg : v.cfg = s.cfg) (he : v.early = s.early) (hd : v.dev = s.dev) :
    deviceOpen v = deviceOpen s := by
  rw [deviceOpen, deviceOpen, hcfg, he, hd]

theorem Hearing.takesControl {cfg : Cfg} {s u : State} {w : Word} (h : Hearing cfg s) (hw : DeviceReceives s w u)
    (hres : hasBits w (reservedMask cfg) = false) : TakesControl cfg w s.dev u.dev := by
  obtain ⟨hv, rfl, he, ht, hne⟩ := h
  obtain ⟨v, hcfg, hearly, hacts, hdev, hexec⟩ := hw
  have hu := hexec _ (decodeWord_of_not_reserved hv _ hres)
  have htake := takesControl_receiveCtrl (s := v) (w := w) (hearly.trans he) (by rw [hcfg, hdev, ht])
    (.inr (by simpa [sentByController, hacts] using hne)) (by rwa [hcfg])
  have hctrl : ctrlWord (wordPayload w) = w := ctrlWord_wordPayload (wordTag_of_not_reserved hv hres)
  injection hu with hu
  rw [hctrl] at hu
  rwa [← hu, ← hdev, ← hcfg]

/-- The LSB word after a control word that declares write mode (R64). -/
theorem Hearing.takesLsb {cfg : Cfg} {s u : State} {bank : Bank} {half : Half} (h : Hearing cfg s)
    (hw : DeviceReceives s (freqWord cfg bank half) u) (hspaced : s.dev.spaced = true) (hlatch : s.dev.latch = .declared) :
    u.dev = { s.dev with latch := .low bank half, spaced := false } := by
  have hopen := h.notOpen
  obtain ⟨hv, rfl, -, -, -⟩ := h
  obtain ⟨v, hcfg, hearly, -, hdev, hexec⟩ := hw
  have hu := hexec _ (decodeWord_freqWord hv.tags _ bank half)
  rw [exec_frequencyInstr_first (by simp [hlatch, pendingBank]),
    receiveLsb_of_declared bank half ((deviceOpen_congr hcfg hearly hdev).trans hopen) (by rwa [hdev]) (by rwa [hdev])] at hu
  injection hu with hu
  rw [← hu, ← hdev]

/-- The MSB word after the LSB word of its bank (R64). -/
theorem Hearing.takesMsb {cfg : Cfg} {s u : State} {bank : Bank} {lsb half : Half} (h : Hearing cfg s)
    (hw : DeviceReceives s (freqWord cfg bank half) u) (hspaced : s.dev.spaced = true) (hlatch : s.dev.latch = .low bank lsb) :
    u.dev = latchFreq bank (joinHalves half lsb) s.dev := by
  have hopen := h.notOpen
  obtain ⟨hv, rfl, -, -, -⟩ := h
  obtain ⟨v, hcfg, hearly, -, hdev, hexec⟩ := hw
  have hu := hexec _ (decodeWord_freqWord hv.tags _ bank half)
  rw [hlatch, pendingBank, exec_frequencyInstr_second,
    receiveMsb_of_low half ((deviceOpen_congr hcfg hearly hdev).trans hopen) (by rwa [hdev]) (by rwa [hdev])] at hu
  injection hu with hu
  rw [← hu, ← hdev]

end Sys2Proof.Proofs

/-! SUPPORT. The completed commands: each elaboration cut into its stretches, and field isolation. -/

namespace Sys2Proof.Proofs

open Sys2Proof.Machine Sys2Proof.Safety

/-! ### A command loaded into a block at rest -/

theorem ready_loadActs {s : State} (hs : AtRest s) (hn : NoFailure s) (f : Bool) (as : List Act) :
    Ready s.cfg (loadActs f as s) :=
  ⟨rfl, hs.noFault, hs.noReceived, hn, hs.clk, hs.cs, ⟨hs.synced.running, hs.synced.clk, hs.synced.cs, hs.synced.data⟩⟩

/-- The premises of R250 and R258 hold of a command loaded after BEGIN, and of BEGIN and RESET at any time. -/
theorem hearing_loadActs {s : State} {f : Bool} {as : List Act} (hv : cfgValid s.cfg = true) (he : s.early = false)
    (ht : timingMet s.cfg s.dev = true) (hf : f = false ∨ s.begun = true) (hne : as ≠ []) : Hearing s.cfg (loadActs f as s) where
  valid := ValidCfg.of_cfgValid hv
  config := rfl
  notEarly := by rcases hf with h | h <;> simp [he, h]
  timing := ht
  inProgress := hne

/-! ### SET_MODE and SET_ACTIVE_FREQUENCY: one word -/

/-- A command that writes `CR` and transmits it, completed (R162, R165). -/
theorem update_completes {s : State} (hs : AtRest s) (hn : NoFailure s) (v : Word) :
    ∃ u, Host.Core.run Sys2Proof.core 53 (loadActs true (updateActs s.cfg v) s) = .next u ∧
      CompletedWith s u (frameEvents s.cfg v ++ [.delay .word, .status .ok]) ∧
      u.cr = v ∧ u.ftw0 = s.ftw0 ∧ u.ftw1 = s.ftw1 ∧ u.begun = s.begun ∧
      (DeviceDefined s → s.begun = true → hasBits v (reservedMask s.cfg) = false → u.dev.ctrl = u.cr) := by
  obtain ⟨x, hx, hword⟩ := performs_write (rest := [.delay .word]) (v := v) (ready_loadActs hs hn true (updateActs s.cfg v)) rfl
    (by simp)
  obtain ⟨hrun, hdone⟩ := completedWith_of_performs (as := .setCr v :: frame s.cfg v) hs hx (.delay .word)
    (by simp [applyAct])
  refine ⟨_, hrun, ?_, ?_, ?_, ?_, ?_, ?_⟩
  · simpa using hdone
  · simpa [applyAct] using hx.cr
  · simpa [applyAct] using hx.ftw0
  · simpa [applyAct] using hx.ftw1
  · simpa [applyAct] using hx.begun
  · intro hd hb hres
    have hear := hearing_loadActs (f := true) (as := updateActs s.cfg v) hs.valid hd.notEarly hd.timing (.inr hb) (by simp [updateActs])
    have hctrl := (hear.takesControl hword hres).ctrl
    have hcr := hx.cr
    simpa [applyAct, hctrl] using hcr.symm

theorem planSetMode_of_pattern {cfg : Cfg} {r : Word} {mode : BitVec 3} {p : Word} (hp : modePattern cfg mode = some p) :
    planSetMode cfg r mode = .ok (updateActs cfg (withMode cfg r p)) := by
  simp [planSetMode, checkMode, hp]

theorem planSetActive_of_bank (cfg : Cfg) (r : Word) (bank : Bank) :
    planSetActive cfg r (if bank = .bank1 then 1 else 0) = .ok (updateActs cfg (withActiveBank cfg r bank)) := by
  cases bank <;> rfl

/-- Settles O40: the update whose value is `withMode`. -/
theorem setModeCompletes : Obligations.SetModeCompletes := by
  intro s mode p hs hn hp
  obtain ⟨u, hrun, hdone, hcr, h0, h1, hb, hdev⟩ := update_completes hs hn (withMode s.cfg s.cr p)
  refine ⟨_, u, acceptCommand_ok hs.noFault hs.noActs (planSetMode_of_pattern hp), hrun, hdone, hcr, h0, h1, hb,
    fun hd hbegun => hdev hd hbegun ?_⟩
  have hv := ValidCfg.of_cfgValid hs.valid
  exact hasBits_withMode (pattern_within hv hp) (modeMask_not_reserved hv) hd.plain

/-- Settles O41: the update whose value is `withActiveBank`. -/
theorem setActiveFrequencyCompletes : Obligations.SetActiveFrequencyCompletes := by
  intro s bank hs hn
  obtain ⟨u, hrun, hdone, hcr, h0, h1, hb, hdev⟩ := update_completes hs hn (withActiveBank s.cfg s.cr bank)
  exact ⟨_, u, acceptCommand_ok hs.noFault hs.noActs (planSetActive_of_bank s.cfg s.cr bank), hrun, hdone, hcr, h0, h1, hb,
    fun hd hbegun => hdev hd hbegun (hasBits_withActiveBank bank (maskFselect_not_reserved s.cfg) hd.plain)⟩

/-! ### RESET and BEGIN: the pulse of `RESET` -/

/-- The elaboration of RESET without its last delay (R153). -/
def pulseActs (cfg : Cfg) (r : Word) : List Act :=
  (.setCr (setBits r (maskReset cfg)) :: frame cfg (setBits r (maskReset cfg))) ++
    ([.delay .word] ++ ([.delay .settle] ++
      (.setCr (clearBits r (maskReset cfg)) :: frame cfg (clearBits r (maskReset cfg)))))

theorem resetActs_eq (cfg : Cfg) (r : Word) : resetActs cfg r = pulseActs cfg r ++ [.delay .word] := by
  simp [resetActs, pulseActs, transmit]

/-- The pulse: the register with `RESET` set and, after the settling delay, clear. The device has then taken the second of the two
words. -/
theorem performs_pulse {cfg : Cfg} {s : State} {r : Word} {rest : List Act} (h : Ready cfg s)
    (hrem : remaining s = pulseActs cfg r ++ rest) (hne : rest ≠ []) :
    ∃ y u, Performs 106 (pulseActs cfg r) s u ∧ DeviceReceives y (clearBits r (maskReset cfg)) u ∧
      (Hearing cfg s → Hearing cfg y) := by
  simp only [pulseActs, List.append_assoc] at hrem
  obtain ⟨s1, h1, -⟩ := performs_write h hrem (by simp)
  have hr1 : Ready cfg s1 := h.config ▸ h1.ready
  obtain ⟨s2, h2, -⟩ := performs_delayWord hr1 (h1.remaining hrem) (by simp)
  have hr2 : Ready cfg s2 := hr1.config ▸ h2.ready
  obtain ⟨s3, h3, -⟩ := performs_delaySettle hr2 (h2.remaining (h1.remaining hrem)) (by simp)
  have hr3 : Ready cfg s3 := hr2.config ▸ h3.ready
  obtain ⟨u, hu, hword⟩ := performs_write hr3 (h3.remaining (h2.remaining (h1.remaining hrem))) hne
  exact ⟨s3, u, h1.trans (h2.trans (h3.trans hu)), hword, fun hear => h3.hearing (h2.hearing (h1.hearing hear))⟩

/-- Settles O38: the pulse, and the delay that ends it. -/
theorem resetCompletes : Obligations.ResetCompletes := by
  intro s hs hn
  have hplan := acceptCommand_ok (c := bareCommand 0b010#3) (f := false) hs.noFault hs.noActs
    (show Except.ok (resetActs s.cfg s.cr) = .ok (pulseActs s.cfg s.cr ++ [.delay .word]) by rw [resetActs_eq])
  obtain ⟨y, x, hx, hword, hhear⟩ := performs_pulse (r := s.cr) (rest := [.delay .word])
    (ready_loadActs hs hn false (pulseActs s.cfg s.cr ++ [.delay .word])) rfl (by simp)
  obtain ⟨hrun, hdone⟩ := completedWith_of_performs hs hx (.delay .word) (by simp [applyAct])
  have hcr : x.cr = clearBits s.cr (maskReset s.cfg) := by simpa [pulseActs, crAfter_append] using hx.cr
  refine ⟨_, _, hplan, hrun, ?_, ?_, ?_, ?_, ?_, fun hd => ?_⟩
  · simpa [pulseActs, setBits, clearBits] using hdone
  · simpa [applyAct, clearBits] using hcr
  · simpa [applyAct] using hx.ftw0
  · simpa [applyAct] using hx.ftw1
  · simpa [applyAct] using hx.begun
  · have hear := hhear (hearing_loadActs hs.valid hd.notEarly hd.timing (.inl rfl) (by simp))
    simpa [applyAct, hcr] using (hear.takesControl hword (hasBits_clearBits _ hd.plain)).ctrl

/-- The elaboration of BEGIN without its last micro-action (R156). -/
def beginBody (cfg : Cfg) : List Act :=
  (.setCr (maskB28 cfg) :: frame cfg (maskB28 cfg)) ++ ([.delay .word] ++ (pulseActs cfg (maskB28 cfg) ++ [.delay .word]))

theorem beginActs_eq (cfg : Cfg) : beginActs cfg = beginBody cfg ++ [.setBegun] := by
  simp [beginActs, beginBody, resetActs_eq, transmit]

/-- The three words of BEGIN. The device has then taken the last of them, and a delay has passed. -/
theorem performs_beginBody {cfg : Cfg} {s : State} {rest : List Act} (h : Ready cfg s)
    (hrem : remaining s = beginBody cfg ++ rest) (hne : rest ≠ []) :
    ∃ y x u, Performs 160 (beginBody cfg) s u ∧ DeviceReceives y (clearBits (maskB28 cfg) (maskReset cfg)) x ∧
      u.dev = { x.dev with spaced := true } ∧ (Hearing cfg s → Hearing cfg y) := by
  simp only [beginBody, List.append_assoc] at hrem
  obtain ⟨s1, h1, -⟩ := performs_write h hrem (by simp)
  have hr1 : Ready cfg s1 := h.config ▸ h1.ready
  obtain ⟨s2, h2, -⟩ := performs_delayWord hr1 (h1.remaining hrem) (by simp)
  have hr2 : Ready cfg s2 := hr1.config ▸ h2.ready
  obtain ⟨y, x, h3, hword, hhear⟩ := performs_pulse hr2 (h2.remaining (h1.remaining hrem)) (by simp)
  have hr3 : Ready cfg x := hr2.config ▸ h3.ready
  obtain ⟨u, hu, hdev⟩ := performs_delayWord hr3 (h3.remaining (h2.remaining (h1.remaining hrem))) hne
  exact ⟨y, x, u, h1.trans (h2.trans (h3.trans hu)), hword, hdev, fun hear => hhear (h2.hearing (h1.hearing hear))⟩

/-- Settles O39: the last of the three words is `B28` again, which declares write mode. -/
theorem beginCompletes : Obligations.BeginCompletes := by
  intro s hs hn
  have hv := ValidCfg.of_cfgValid hs.valid
  have hb28 := clearBits_maskB28_maskReset hv
  have hplan := acceptCommand_ok (c := bareCommand 0b001#3) (f := false) hs.noFault hs.noActs
    (congrArg (Except.ok (ε := Cause)) (beginActs_eq s.cfg))
  obtain ⟨y, x, v, hx, hword, hdev, hhear⟩ := performs_beginBody (rest := [.setBegun])
    (ready_loadActs hs hn false (beginBody s.cfg ++ [.setBegun])) rfl (by simp)
  obtain ⟨hrun, hdone⟩ := completedWith_of_performs hs hx .setBegun (by simp [applyAct, hdev])
  have hcr : v.cr = maskB28 s.cfg := by simpa [beginBody, pulseActs, crAfter_append, hb28] using hx.cr
  refine ⟨_, _, hplan, hrun, ?_, ?_, ?_, ?_, ?_, fun he ht => ?_⟩
  · rw [← hb28]
    simpa [beginBody, pulseActs, setBits, hb28] using hdone
  · simpa [applyAct] using hcr
  · simpa [applyAct] using hx.ftw0
  · simpa [applyAct] using hx.ftw1
  · simp [applyAct]
  · have hear := hhear (hearing_loadActs hs.valid he ht (.inl rfl) (by simp))
    rw [hb28] at hword
    obtain ⟨hctrl, hlatch, -⟩ := hear.takesControl hword (maskB28_not_reserved s.cfg)
    rw [declaresWriteMode_maskB28 hv] at hlatch
    simp [applyAct, hdev, hcr, hctrl, hlatch]

/-! ### SET_FREQUENCY: a control word and two halves -/

/-- The elaboration of SET_FREQUENCY without its last micro-action (R175). -/
def frequencyBody (cfg : Cfg) (r : Word) (bank : Bank) (t : TuningWord) : List Act :=
  transmit cfg r ++ (transmit cfg (freqWord cfg bank (lsbHalf t)) ++ transmit cfg (freqWord cfg bank (msbHalf t)))

theorem frequencyActs_eq (cfg : Cfg) (r : Word) (bank : Bank) (t : TuningWord) :
    frequencyActs cfg r bank t = frequencyBody cfg r bank t ++ [.setFtw bank t] := by
  simp [frequencyActs, frequencyBody]

/-- What the three words of SET_FREQUENCY leave in the device, where the control word declares write mode (R64). -/
structure LatchesWord (r : Word) (bank : Bank) (t : TuningWord) (d d' : Device) : Prop where
  ctrl : d'.ctrl = r
  loaded : devFreq bank d' = t
  other : d.spaced = true → pendingBank d.latch = none → devFreq (otherBank bank) d' = devFreq (otherBank bank) d

theorem performs_frequencyBody {cfg : Cfg} {s : State} {r : Word} {bank : Bank} {t : TuningWord} {rest : List Act}
    (h : Ready cfg s) (hrem : remaining s = frequencyBody cfg r bank t ++ rest) (hne : rest ≠ []) :
    ∃ u, Performs 156 (frequencyBody cfg r bank t) s u ∧ u.dev.spaced = true ∧
      (Hearing cfg s → hasBits r (reservedMask cfg) = false → declaresWriteMode cfg r = true →
        LatchesWord r bank t s.dev u.dev) := by
  simp only [frequencyBody, List.append_assoc] at hrem
  obtain ⟨x1, s1, h1, hw1, hd1⟩ := performs_transmit h hrem (by simp [transmit])
  have hr1 : Ready cfg s1 := h.config ▸ h1.ready
  obtain ⟨x2, s2, h2, hw2, hd2⟩ := performs_transmit hr1 (h1.remaining hrem) (by simp [transmit])
  have hr2 : Ready cfg s2 := hr1.config ▸ h2.ready
  obtain ⟨x3, s3, h3, hw3, hd3⟩ := performs_transmit hr2 (h2.remaining (h1.remaining hrem)) hne
  refine ⟨s3, h1.trans (h2.trans h3), by rw [hd3], fun hear hres hdecl => ?_⟩
  have hreset : hasBits r (maskReset cfg) = false := by
    simp only [declaresWriteMode, Bool.and_eq_true, Bool.not_eq_true'] at hdecl
    exact hdecl.2
  obtain ⟨hctrl, hlatch, hregs⟩ := hear.takesControl hw1 hres
  have hx2 := (h1.hearing hear).takesLsb hw2 (by rw [hd1]) (by rw [hd1, hlatch, hdecl]; rfl)
  have hx3 := (h2.hearing (h1.hearing hear)).takesMsb (lsb := lsbHalf t) hw3 (by rw [hd2]) (by rw [hd2, hx2])
  rw [joinHalves_halves] at hx3
  refine ⟨?_, ?_, fun hspaced hpending => ?_⟩
  · simp [hd3, hx3, hd2, hx2, hd1, hctrl]
  · rw [hd3, hx3]
    cases bank <;> rfl
  · obtain ⟨hfreq0, hfreq1, -, -⟩ := hregs hspaced hreset hpending
    rw [hd3, hx3, hd2, hx2, hd1]
    cases bank with
    | bank0 => exact hfreq1
    | bank1 => exact hfreq0

theorem planSetFrequency_of_check {cfg : Cfg} (r : Word) {channel : Int} {freq : Rat} {bank : Bank} {t : TuningWord}
    (h : checkFrequency cfg channel freq = .ok (bank, t)) :
    planSetFrequency cfg r channel freq = .ok (frequencyActs cfg r bank t) := by
  simp [planSetFrequency, h]

/-- Settles O42. -/
theorem setFrequencyCompletes : Obligations.SetFrequencyCompletes := by
  intro s channel bank freq t hs hn hcheck
  have hplan := acceptCommand_ok (f := true)
    (c := { bareCommand 0b100#3 with channel := channel, freq := freq }) hs.noFault hs.noActs
    ((planSetFrequency_of_check s.cr hcheck).trans (congrArg Except.ok (frequencyActs_eq s.cfg s.cr bank t)))
  obtain ⟨v, hv, hspaced, hdev⟩ := performs_frequencyBody (r := s.cr) (bank := bank) (t := t) (rest := [.setFtw bank t])
    (ready_loadActs hs hn true (frequencyBody s.cfg s.cr bank t ++ [.setFtw bank t])) rfl (by simp)
  obtain ⟨hrun, hdone⟩ := completedWith_of_performs hs hv (.setFtw bank t) (by simpa [applyAct] using hspaced)
  refine ⟨_, _, hplan, hrun, ?_, ?_, ?_, ?_, ?_, fun hd hb hdecl => ?_⟩
  · simpa [frequencyBody, transmit] using hdone
  · simpa [applyAct, frequencyBody, transmit, crAfter_append] using hv.cr
  · cases bank <;> simp [applyAct, ftwOf, setFtw]
  · cases bank
    · simpa [applyAct, ftwOf, setFtw, otherBank] using hv.ftw1
    · simpa [applyAct, ftwOf, setFtw, otherBank] using hv.ftw0
  · simpa [applyAct] using hv.begun
  · have hear := hearing_loadActs (f := true) hs.valid hd.notEarly hd.timing (.inr hb)
      (show frequencyBody s.cfg s.cr bank t ++ [.setFtw bank t] ≠ [] by simp)
    obtain ⟨hctrl, hloaded, hother⟩ := hdev hear hd.plain hdecl
    exact ⟨by simpa [applyAct] using hctrl, by simpa [applyAct] using hloaded, by simpa [applyAct] using hother⟩

/-! ### Field isolation -/

/-- All that an accepting block does with a command: turn it away, or load its elaboration. -/
theorem accepting_cases {c : Command} {f : Bool} {plan : Except Cause (List Act)} {s t : State} (hs : Accepting s)
    (h : acceptCommand c f plan s = .next t) :
    (∃ cause, plan = .error cause ∧ t.cr = s.cr ∧ t.acts = []) ∨ (∃ as, plan = .ok as ∧ t.cr = s.cr ∧ t.acts = as) := by
  obtain ⟨-, ⟨hne, -⟩ | ⟨ha, cause, hp, rfl⟩ | ⟨-, as, hp, rfl⟩⟩ := acceptCommand_cases h
  · exact absurd hs.noActs hne
  · exact .inl ⟨cause, hp, rfl, ha⟩
  · exact .inr ⟨as, hp, rfl, rfl⟩

/-- SET_MODE writes the bits of `MODE_MASK` and no other, and writes the pattern there (R33, R162). -/
theorem withMode_fields {cfg : Cfg} {r p : Word} (hp : hasBits p (~~~ cfg.modeMask) = false) :
    withMode cfg r p &&& ~~~ cfg.modeMask = r &&& ~~~ cfg.modeMask ∧ withMode cfg r p &&& cfg.modeMask = p := by
  rw [hasBits_eq_false_iff] at hp
  have bit (i : Nat) (hi : i < 16) : (withMode cfg r p)[i] = bif cfg.modeMask[i] then p[i] else r[i] := by
    have hin := hp i hi
    rw [withMode, setBits_getElem, clearBits_getElem]
    cases hpi : p[i] <;> cases hm : cfg.modeMask[i] <;> simp_all
  constructor <;> ext i hi
  · simp only [BitVec.getElem_and, BitVec.getElem_not, bit]
    cases cfg.modeMask[i] <;> simp
  · have hin := hp i hi
    simp only [BitVec.getElem_and, bit]
    cases hm : cfg.modeMask[i] <;> simp_all

/-- SET_ACTIVE_FREQUENCY writes `FSELECT` and no other bit (R33, R165). -/
theorem withActiveBank_keeps (cfg : Cfg) (r : Word) (bank : Bank) :
    clearBits (withActiveBank cfg r bank) (maskFselect cfg) = clearBits r (maskFselect cfg) := by
  cases bank with
  | bank0 => exact clearBits_of_hasBits_eq_false (hasBits_clearBits_self r _)
  | bank1 => exact clearBits_setBits r _

theorem hasBits_setBits_self {r m : Word} (hm : m ≠ 0#16) : hasBits (setBits r m) m = true := by
  have hand : setBits r m &&& m = m := by
    ext i hi
    rw [BitVec.getElem_and, setBits_getElem]
    cases m[i] <;> simp
  simpa [hasBits, hand] using hm

theorem maskFselect_ne_zero {cfg : Cfg} (h : ValidCfg cfg) : maskFselect cfg ≠ 0#16 := by
  have hin : cfg.layout.fselect < 14 := h.inRange _ (by simp [layoutPositions])
  exact fieldMask_ne_zero (by omega)

theorem setMode_fields {s t : State} {mode : BitVec 3} (hv : ValidCfg s.cfg) (hs : Accepting s)
    (h : exec (.setMode mode) s = .next t) :
    crAfter t.cr t.acts &&& ~~~ s.cfg.modeMask = s.cr &&& ~~~ s.cfg.modeMask ∧
      ∀ pattern, modePattern s.cfg mode = some pattern → crAfter t.cr t.acts &&& s.cfg.modeMask = pattern := by
  rcases accepting_cases hs h with ⟨cause, hp, hcr, hacts⟩ | ⟨as, hp, hcr, rfl⟩
  · rw [hacts, hcr]
    refine ⟨rfl, fun pattern hm => ?_⟩
    rw [planSetMode_of_pattern hm] at hp
    cases hp
  · obtain ⟨p, hm, hacts⟩ := planSetMode_ok hp
    obtain ⟨hkept, hwritten⟩ := withMode_fields (r := s.cr) (pattern_within hv hm)
    rw [hacts, crAfter_updateActs]
    refine ⟨hkept, fun pattern hpat => hwritten.trans ?_⟩
    rw [hm] at hpat
    injection hpat

theorem setActiveFrequency_fields {s t : State} {channel : Int} (hv : ValidCfg s.cfg) (hs : Accepting s)
    (h : exec (.setActiveFrequency channel) s = .next t) :
    crAfter t.cr t.acts &&& ~~~ maskFselect s.cfg = s.cr &&& ~~~ maskFselect s.cfg ∧
      (channel = 0 → hasBits (crAfter t.cr t.acts) (maskFselect s.cfg) = false) ∧
      (channel = 1 → hasBits (crAfter t.cr t.acts) (maskFselect s.cfg) = true) := by
  rcases accepting_cases hs h with ⟨cause, hp, hcr, hacts⟩ | ⟨as, hp, hcr, rfl⟩
  · rw [hacts, hcr]
    refine ⟨rfl, ?_, ?_⟩ <;> rintro rfl <;> cases hp
  · obtain ⟨bank, hbank, hacts⟩ := planSetActive_ok hp
    rw [hacts, crAfter_updateActs]
    refine ⟨withActiveBank_keeps s.cfg s.cr bank, ?_, ?_⟩ <;> rintro rfl <;> cases hbank
    · exact hasBits_clearBits_self _ _
    · exact hasBits_setBits_self (maskFselect_ne_zero hv)

/-- Settles O43, command by command: the register after the elaboration, under the mask of the command's field. -/
theorem commandsWriteOnlyTheirFields : Obligations.CommandsWriteOnlyTheirFields := by
  intro s t hvalid hs
  have hv := ValidCfg.of_cfgValid hvalid
  refine ⟨fun mode h => setMode_fields hv hs h, fun channel h => setActiveFrequency_fields hv hs h, fun h => ?reset,
    fun h => ?begin, fun channel freq v h => ?frequency, fun word v h => ?transfer⟩
  case reset =>
    rw [exec_resetCmd, acceptCommand_ok hs.noFault hs.noActs rfl] at h
    cases h
    rw [loadActs_acts, crAfter_resetActs]
    exact ⟨clearBits_of_hasBits_eq_false (hasBits_clearBits_self _ _), hasBits_clearBits_self _ _,
      List.mem_cons_self⟩
  case begin =>
    rw [exec_beginCmd, acceptCommand_ok hs.noFault hs.noActs rfl] at h
    cases h
    rw [loadActs_acts, crAfter_beginActs, clearBits_maskB28_maskReset hv]
  case frequency =>
    rcases accepting_cases hs h with ⟨cause, -, -, hacts⟩ | ⟨as, hp, -, rfl⟩
    · simp [hacts]
    · obtain ⟨bank, w, hacts⟩ := planSetFrequency_ok hp
      simp [hacts, frequencyActs, transmit]
  case transfer =>
    rcases accepting_cases hs h with ⟨cause, -, -, hacts⟩ | ⟨as, hp, -, rfl⟩
    · simp [hacts]
    · obtain ⟨w, hacts⟩ := planTransfer_ok hp
      simp [hacts]

end Sys2Proof.Proofs

/-! SUPPORT. The world around the block: the driver's pins and calls, the refusals of construction, and the two halves of a tuning
word at the device. -/

namespace Sys2Proof.Proofs

open Sys2Proof.Machine Sys2Proof.Safety

/-! ### Driver calls -/

theorem pinOf_mem_pinsUsed (cfg : Cfg) (p : Line) : pinOf cfg p ∈ pinsUsed cfg := by
  cases p <;> simp [pinOf, pinsUsed]

/-- What a micro-action asks of the driver: a direction or a level on the pin of its line, or nothing (R60). -/
theorem driverCall_cases (cfg : Cfg) (a : Act) :
    (actLine a = none ∧ driverCall cfg a = none) ∨
    (∃ p, actLine a = some p ∧ driverCall cfg a = some (.configureDirection (pinOf cfg p) true)) ∨
    (∃ p l, actLine a = some p ∧ driverCall cfg a = some (.writeLevel (pinOf cfg p) l)) := by
  cases a with
  | gpioDir p => exact .inr (.inl ⟨p, rfl, rfl⟩)
  | gpioWrite p l => exact .inr (.inr ⟨p, l, rfl, rfl⟩)
  | delay | setCr | setFtw | setBegun => exact .inl ⟨rfl, rfl⟩

theorem actLine_eq_none_iff_driverCall (cfg : Cfg) (a : Act) : actLine a = none ↔ driverCall cfg a = none := by
  obtain ⟨hl, hc⟩ | ⟨p, hl, hc⟩ | ⟨p, l, hl, hc⟩ := driverCall_cases cfg a <;> simp [hl, hc]

theorem driverCall_configureDirection {cfg : Cfg} {a : Act} {pin : Nat} {out : Bool}
    (h : driverCall cfg a = some (.configureDirection pin out)) : out = true ∧ pin ∈ pinsUsed cfg := by
  obtain ⟨-, hc⟩ | ⟨p, -, hc⟩ | ⟨p, l, -, hc⟩ := driverCall_cases cfg a <;> cases hc.symm.trans h
  exact ⟨rfl, pinOf_mem_pinsUsed cfg p⟩

theorem driverCall_writeLevel {cfg : Cfg} {a : Act} {pin : Nat} {l : Bool}
    (h : driverCall cfg a = some (.writeLevel pin l)) : pin ∈ pinsUsed cfg := by
  obtain ⟨-, hc⟩ | ⟨p, -, hc⟩ | ⟨p, k, -, hc⟩ := driverCall_cases cfg a <;> cases hc.symm.trans h
  exact pinOf_mem_pinsUsed cfg p

/-- Settles O36: the calls of the two GPIO micro-actions are the model's equations, and `driverCall_cases` leaves no other call. -/
theorem driverCallsNameOnePin : Obligations.DriverCallsNameOnePin := fun cfg =>
  ⟨⟨rfl, rfl, rfl⟩, fun _ => ⟨rfl, rfl⟩, fun _ _ => ⟨rfl, rfl⟩, actLine_eq_none_iff_driverCall cfg,
    fun _ _ _ h => driverCall_configureDirection h, fun _ _ _ h => driverCall_writeLevel h⟩

/-! ### Construction refused -/

theorem construct_of_invalid {cfg : Cfg} (h : cfgValid cfg = false) (others : List Cfg) (answers : List DriverAnswer)
    (dev : Device) (free : Nat) : construct others cfg answers dev free = .refused .invalidConfiguration :=
  if_neg (by simp [h])

theorem construct_of_sharesPin {others : List Cfg} {cfg : Cfg} (hv : cfgValid cfg = true)
    (h : ∃ o ∈ others, sharesPin cfg o = true) (answers : List DriverAnswer) (dev : Device) (free : Nat) :
    construct others cfg answers dev free = .refused .pinsShared := by
  rw [construct, if_pos hv, if_pos (List.any_eq_true.mpr h)]

/-- Settles O9: the two refusals, in the order in which construction makes them. -/
theorem constructionRefusesBadConfigurations : Obligations.ConstructionRefusesBadConfigurations :=
  fun others _ answers dev free =>
    ⟨fun h => construct_of_invalid h others answers dev free, fun hv h => construct_of_sharesPin hv h answers dev free⟩

/-! ### The halves of a tuning word, one received word each -/

theorem deviceOpen_eq_false {s : State} (he : s.early = false) (ht : timingMet s.cfg s.dev = true) :
    deviceOpen s = false := by
  simp [deviceOpen, he, ht]

/-- Settles O52: `receiveLsb_of_declared`, for each bank. -/
theorem lsbWordIsHeld : Obligations.LsbWordIsHeld := by
  intro s half he ht hspaced hlatch
  have held (bank : Bank) := receiveLsb_of_declared bank half (deviceOpen_eq_false he ht) hspaced hlatch
  exact ⟨congrArg Host.Outcome.next (held .bank0), congrArg Host.Outcome.next (held .bank1)⟩

/-- Settles O53: `receiveMsb_of_low`, for the bank whose first half is held. -/
theorem msbWordLatchesTheFullWord : Obligations.MsbWordLatchesTheFullWord := by
  intro s lsb msb he ht hspaced
  have latched {bank : Bank} (hlatch : s.dev.latch = .low bank lsb) :=
    receiveMsb_of_low msb (deviceOpen_eq_false he ht) hspaced hlatch
  exact ⟨fun h => congrArg Host.Outcome.next (latched h), fun h => congrArg Host.Outcome.next (latched h)⟩

end Sys2Proof.Proofs

/-! SUPPORT. Decoding undoes encoding: the records by their op code, the device words by their tag and their place in the sequence. -/

namespace Sys2Proof.Proofs

open Sys2Proof.Machine Sys2Proof.Safety

/-! ### Records and words, decoded -/

/-- Settles O4, by evaluating the decoder at each of the eight op codes. -/
theorem recordsDecodeByOpCode : Obligations.RecordsDecodeByOpCode :=
  fun _ _ _ _ => ⟨rfl, rfl, rfl, rfl, rfl, rfl, rfl, rfl⟩

theorem decodeWord_ctrlWord (cfg : Cfg) (pending : Option Bank) (fields : BitVec 14) :
    decodeWord cfg pending (ctrlWord fields) = .ok (.dwCtrl fields) := by
  simp [decodeWord]

/-- A word whose tag is that of no format decodes to no instruction (R90, R91). -/
theorem decodeWord_of_no_format {cfg : Cfg} {w : Word} (pending : Option Bank) (hctrl : wordTag w ≠ 0b00#2)
    (hfreq0 : wordTag w ≠ cfg.freqTag0) (hfreq1 : wordTag w ≠ cfg.freqTag1) :
    decodeWord cfg pending w = .error (.tagOfNoFormat (wordTag w)) := by
  rw [decodeWord, if_neg hctrl, if_neg hfreq0, if_neg hfreq1]

/-- Settles O5: a record keeps its op code and the operands of its command, a control word its fields, and a frequency word its bank's
tag and its half (`decodeWord_freqWord`), to which `fitsPlace` adds which of the two halves it is. -/
theorem encodingThenDecodingIsIdentity : Obligations.EncodingThenDecodingIsIdentity := by
  intro cfg pending i ht hfit
  cases i with
  | transfer | beginCmd | resetCmd | setMode | setFrequency | setActiveFrequency | reserved6 | reserved7 => rfl
  | dwCtrl fields => exact decodeWord_ctrlWord cfg pending fields
  | dwFreq0Lsb half | dwFreq1Lsb half | dwFreq0Msb half | dwFreq1Msb half =>
    rw [encode, decode, decodeWord_freqWord ht]
    simpa [frequencyInstr, fitsPlace] using hfit

/-! ### The rows of the opcode table -/

/-- A row whose bits are the encoding of an instruction that can stand first is read as that instruction. -/
theorem decodeTableWord_of_encode {nbits w : Nat} {i : Instr} (hrow : tablePacket nbits w = some (encode defaultCfg i))
    (hfit : fitsPlace none i = true) : decodeTableWord nbits w = some i := by
  simp only [decodeTableWord, hrow, encodingThenDecodingIsIdentity defaultCfg none i rfl hfit]

/-- Settles O3: the bits written out are the encodings of the instructions, so that they decode to them, and `0b11` is the tag of no
format. -/
theorem writtenOutEncodingsDecode : Obligations.WrittenOutEncodingsDecode :=
  ⟨decodeTableWord_of_encode rfl rfl, decodeTableWord_of_encode rfl rfl, decodeTableWord_of_encode rfl rfl,
    decodeTableWord_of_encode rfl rfl, decodeTableWord_of_encode rfl rfl,
    encodingThenDecodingIsIdentity defaultCfg (some .bank1) (.dwFreq1Msb 0b00001010001111#14) rfl rfl,
    decodeWord_of_no_format none (by decide) (by decide) (by decide)⟩

/-! ### The place in the sequence -/

/-- Settles O54, by what each kind of received word leaves of the place (`receiveCtrl_place` and its like). -/
theorem receivedWordsMoveThePlace : Obligations.ReceivedWordsMoveThePlace :=
  fun s fields half =>
    ⟨⟨_, rfl, receiveCtrl_place (ctrlWord fields) s⟩, ⟨_, rfl, receiveLsb_place .bank0 half s⟩,
      ⟨_, rfl, receiveMsb_place .bank0 half s⟩, ⟨_, rfl, receiveLsb_place .bank1 half s⟩,
      ⟨_, rfl, receiveMsb_place .bank1 half s⟩⟩

end Sys2Proof.Proofs

/-! SUPPORT. The validation of the operands: what each check answers, and with it which commands an accepting block takes up and what
the others return. -/

namespace Sys2Proof.Proofs

open Sys2Proof.Machine Sys2Proof.Safety

/-! ### The operands, checked -/

/-- Channel 0 names bank 0 and channel 1 names bank 1 (R84). -/
theorem checkChannel_of_names {channel : Int} {bank : Bank}
    (h : channel = 0 ∧ bank = .bank0 ∨ channel = 1 ∧ bank = .bank1) : checkChannel channel = .ok bank := by
  rcases h with ⟨rfl, rfl⟩ | ⟨rfl, rfl⟩ <;> rfl

theorem exists_checkChannel {channel : Int} (h : channel = 0 ∨ channel = 1) : ∃ bank, checkChannel channel = .ok bank := by
  rcases h with rfl | rfl <;> exact ⟨_, rfl⟩

/-- No other integer names a bank (R84). -/
theorem checkChannel_of_ne {channel : Int} (h0 : channel ≠ 0) (h1 : channel ≠ 1) :
    checkChannel channel = .error (.channel channel) := by
  rw [checkChannel, if_neg h0, if_neg h1]

theorem checkWord_of_outside {word : Int} (h : word < 0 ∨ 65535 < word) : checkWord word = .error (.wordRange word) :=
  if_neg (by omega)

/-- Codes 5, 6 and 7 name no pattern (R85). -/
theorem modePattern_eq_none_iff {cfg : Cfg} {mode : BitVec 3} : modePattern cfg mode = none ↔ 4 < mode.toNat := by
  rw [modePattern, List.getElem?_eq_none_iff]
  exact Iff.rfl

theorem checkMode_of_unsupported (cfg : Cfg) {mode : BitVec 3} (h : 4 < mode.toNat) :
    checkMode cfg mode = .error (.unsupportedMode mode) := by
  rw [checkMode, modePattern_eq_none_iff.mpr h]

/-- A candidate of 28 bits is the tuning word, under every policy and rounding (R170). -/
theorem tuningWord_of_fits {cfg : Cfg} {freq : Rat} {t : TuningWord} (h : tuningCandidate cfg freq = t.toNat) :
    tuningWord cfg freq = .ok t := by
  have hle : tuningCandidate cfg freq ≤ maxTuning := by
    have ht : t.toNat < 2 ^ 28 := t.isLt
    rw [maxTuning]
    omega
  rw [tuningWord, if_pos hle, h, BitVec.ofNat_toNat, BitVec.setWidth_eq]

/-- A candidate of more than 28 bits is turned away under REJECT (R170). -/
theorem tuningWord_of_overflow {cfg : Cfg} {freq : Rat} (h : 2 ^ 28 ≤ tuningCandidate cfg freq)
    (hpolicy : cfg.overflowPolicy = .reject) :
    tuningWord cfg freq = .error (.freqOverflow (tuningCandidate cfg freq)) := by
  have hgt : ¬ tuningCandidate cfg freq ≤ maxTuning := by
    rw [maxTuning]
    omega
  rw [tuningWord, if_neg hgt, hpolicy]

theorem checkFreq_of_nonneg (cfg : Cfg) {freq : Rat} (h : 0 ≤ freq) : checkFreq cfg freq = tuningWord cfg freq := if_pos h

theorem checkFreq_of_neg (cfg : Cfg) {freq : Rat} (h : freq < 0) : checkFreq cfg freq = .error (.freqRange freq) :=
  if_neg (not_le.mpr h)

/-- The channel is checked before the frequency (R203). -/
theorem checkFrequency_of_channel_error {cfg : Cfg} {channel : Int} {cause : Cause} (freq : Rat)
    (h : checkChannel channel = .error cause) : checkFrequency cfg channel freq = .error cause := by
  rw [checkFrequency, h]

theorem checkFrequency_of_freq_error {cfg : Cfg} {channel : Int} {freq : Rat} {bank : Bank} {cause : Cause}
    (hc : checkChannel channel = .ok bank) (hf : checkFreq cfg freq = .error cause) :
    checkFrequency cfg channel freq = .error cause := by
  rw [checkFrequency, hc]
  simp only [hf]

theorem checkFrequency_of_ok {cfg : Cfg} {channel : Int} {freq : Rat} {bank : Bank} {t : TuningWord}
    (hc : checkChannel channel = .ok bank) (hf : checkFreq cfg freq = .ok t) :
    checkFrequency cfg channel freq = .ok (bank, t) := by
  rw [checkFrequency, hc]
  simp only [hf]

/-! ### The checks pass exactly on the domains of R83 -/

@[simp] theorem isOk_ok {ε α : Type} (a : α) : (Except.ok a : Except ε α).isOk = true := rfl
@[simp] theorem isOk_error {ε α : Type} (e : ε) : (Except.error e : Except ε α).isOk = false := rfl

theorem isOk_checkWord (word : Int) : (checkWord word).isOk = (decide (0 ≤ word) && decide (word < 2 ^ 16)) := by
  rw [← Bool.decide_and]
  by_cases h : word < 0 ∨ 65535 < word
  · rw [checkWord_of_outside h, decide_eq_false (by omega), isOk_error]
  · rw [checkWord, if_pos (by omega), decide_eq_true (by omega), isOk_ok]

theorem isOk_checkMode (cfg : Cfg) (mode : BitVec 3) : (checkMode cfg mode).isOk = decide (mode.toNat < 5) := by
  by_cases h : 4 < mode.toNat
  · rw [checkMode_of_unsupported cfg h, decide_eq_false (by omega), isOk_error]
  · obtain ⟨p, hp⟩ := Option.ne_none_iff_exists'.mp (mt (modePattern_eq_none_iff (cfg := cfg)).mp h)
    rw [checkMode, hp, decide_eq_true (by omega), isOk_ok]

theorem isOk_checkChannel (channel : Int) : (checkChannel channel).isOk = channelInRange channel := by
  by_cases h : channel = 0 ∨ channel = 1
  · rcases h with rfl | rfl <;> rfl
  · obtain ⟨h0, h1⟩ := not_or.mp h
    simp [checkChannel_of_ne h0 h1, channelInRange, h0, h1]

theorem isOk_tuningWord (cfg : Cfg) (freq : Rat) :
    (tuningWord cfg freq).isOk = (decide (tuningCandidate cfg freq < 2 ^ 28) || cfg.overflowPolicy == .saturate) := by
  by_cases h : tuningCandidate cfg freq < 2 ^ 28
  · rw [tuningWord_of_fits (t := BitVec.ofNatLT _ h) (by simp), decide_eq_true h, Bool.true_or, isOk_ok]
  · rw [decide_eq_false h, Bool.false_or]
    cases hpolicy : cfg.overflowPolicy with
    | reject =>
      rw [tuningWord_of_overflow (by omega) hpolicy]
      rfl
    | saturate =>
      rw [tuningWord, if_neg (by rw [maxTuning]; omega), hpolicy]
      rfl

theorem isOk_checkFreq (cfg : Cfg) (freq : Rat) : (checkFreq cfg freq).isOk = freqInRange cfg freq := by
  by_cases h : 0 ≤ freq
  · rw [checkFreq_of_nonneg cfg h, isOk_tuningWord, freqInRange, decide_eq_true h, Bool.true_and]
  · rw [checkFreq_of_neg cfg (not_le.mp h), freqInRange, decide_eq_false h, Bool.false_and, isOk_error]

theorem isOk_checkFrequency (cfg : Cfg) (channel : Int) (freq : Rat) :
    (checkFrequency cfg channel freq).isOk = (channelInRange channel && freqInRange cfg freq) := by
  rw [← isOk_checkChannel, ← isOk_checkFreq]
  cases hc : checkChannel channel with
  | error cause => rw [checkFrequency_of_channel_error freq hc]; rfl
  | ok bank =>
    cases hf : checkFreq cfg freq with
    | error cause => rw [checkFrequency_of_freq_error hc hf]; rfl
    | ok t => rw [checkFrequency_of_ok hc hf]; rfl

/-- Settles O30: the two channels by their checks, and `FSELECT` by clearing or setting a field that R32 places within the word. -/
theorem channelsNameTheBanks : Obligations.ChannelsNameTheBanks := by
  intro cfg r hv
  have hset := hasBits_setBits_self (r := r) (maskFselect_ne_zero (ValidCfg.of_cfgValid hv))
  exact ⟨rfl, rfl, hasBits_clearBits_self r _, rfl, rfl, hset, fun _ h0 h1 => checkChannel_of_ne h0 h1⟩

/-! ### A plan fails exactly when the check of its operands does -/

theorem planTransfer_of_error (cfg : Cfg) {word : Int} {cause : Cause} (h : checkWord word = .error cause) :
    planTransfer cfg word = .error cause := by
  rw [planTransfer, h]

theorem planSetMode_of_error {cfg : Cfg} (r : Word) {mode : BitVec 3} {cause : Cause} (h : checkMode cfg mode = .error cause) :
    planSetMode cfg r mode = .error cause := by
  rw [planSetMode, h]

theorem planSetActive_of_error (cfg : Cfg) (r : Word) {channel : Int} {cause : Cause} (h : checkChannel channel = .error cause) :
    planSetActive cfg r channel = .error cause := by
  rw [planSetActive, h]

theorem planSetFrequency_of_error {cfg : Cfg} (r : Word) {channel : Int} {freq : Rat} {cause : Cause}
    (h : checkFrequency cfg channel freq = .error cause) : planSetFrequency cfg r channel freq = .error cause := by
  rw [planSetFrequency, h]

theorem isOk_planTransfer (cfg : Cfg) (word : Int) : (planTransfer cfg word).isOk = (checkWord word).isOk := by
  unfold planTransfer
  cases checkWord word <;> rfl

theorem isOk_planSetMode (cfg : Cfg) (r : Word) (mode : BitVec 3) :
    (planSetMode cfg r mode).isOk = (checkMode cfg mode).isOk := by
  unfold planSetMode
  cases checkMode cfg mode <;> rfl

theorem isOk_planSetActive (cfg : Cfg) (r : Word) (channel : Int) :
    (planSetActive cfg r channel).isOk = (checkChannel channel).isOk := by
  unfold planSetActive
  cases checkChannel channel <;> rfl

theorem isOk_planSetFrequency (cfg : Cfg) (r : Word) (channel : Int) (freq : Rat) :
    (planSetFrequency cfg r channel freq).isOk = (checkFrequency cfg channel freq).isOk := by
  unfold planSetFrequency
  cases checkFrequency cfg channel freq <;> rfl

/-! ### Commands turned away -/

/-- Settles O29: both codes are refused before the state is looked at. -/
theorem reservedCodesAreRefused : Obligations.ReservedCodesAreRefused := fun _ => ⟨rfl, rfl⟩

/-- A command that fails its validation adds its status to the observation, and that is all (R202). -/
theorem acceptCommand_rejected {s : State} (hs : Accepting s) (c : Command) (f : Bool) {plan : Except Cause (List Act)}
    {cause : Cause} (hp : plan = .error cause) :
    acceptCommand c f plan s = .next { s with trace := s.trace ++ [.status (.invalidArgument cause)] } := by
  rw [acceptCommand_error hs.noFault hs.noActs hp, raiseInvalid, emit_status]

theorem exec_setFrequency_rejected {s : State} (hs : Accepting s) {channel : Int} {freq : Rat} {cause : Cause}
    (h : checkFrequency s.cfg channel freq = .error cause) :
    exec (.setFrequency channel freq) s = .next { s with trace := s.trace ++ [.status (.invalidArgument cause)] } :=
  acceptCommand_rejected hs _ _ (planSetFrequency_of_error s.cr h)

/-- Settles O25: each cause is what the check of its operand answers, and `checkFrequency` asks for the channel, the range and the
overflow in this order. -/
theorem invalidArgumentChangesNothing : Obligations.InvalidArgumentChangesNothing := by
  refine fun s hs => ⟨fun word h => ?wordRange, fun mode h => ?mode, fun channel h0 h1 => ⟨?channel, fun freq => ?frequencyChannel⟩,
    fun channel freq hc h => ?freqRange, fun channel freq hc hnonneg h hpolicy => ?overflow⟩
  case wordRange => exact acceptCommand_rejected hs _ _ (planTransfer_of_error s.cfg (checkWord_of_outside h))
  case mode => exact acceptCommand_rejected hs _ _ (planSetMode_of_error s.cr (checkMode_of_unsupported s.cfg h))
  case channel => exact acceptCommand_rejected hs _ _ (planSetActive_of_error s.cfg s.cr (checkChannel_of_ne h0 h1))
  case frequencyChannel =>
    exact exec_setFrequency_rejected hs (checkFrequency_of_channel_error freq (checkChannel_of_ne h0 h1))
  case freqRange =>
    obtain ⟨bank, hbank⟩ := exists_checkChannel hc
    exact exec_setFrequency_rejected hs (checkFrequency_of_freq_error hbank (checkFreq_of_neg s.cfg h))
  case overflow =>
    obtain ⟨bank, hbank⟩ := exists_checkChannel hc
    have hfreq := (checkFreq_of_nonneg s.cfg hnonneg).trans (tuningWord_of_overflow h hpolicy)
    exact exec_setFrequency_rejected hs (checkFrequency_of_freq_error hbank hfreq)

/-! ### Commands taken up -/

/-- A frequency or mode command that passes its validation is loaded, and marks whether BEGIN is still to come (assumption 10). -/
theorem acceptCommand_frequencyOrMode {s : State} (hs : Accepting s) (c : Command) {plan : Except Cause (List Act)}
    {as : List Act} (hp : plan = .ok as) :
    acceptCommand c true plan s = .next { s with acts := as, pc := 0, early := s.early || !s.begun } :=
  acceptCommand_ok hs.noFault hs.noActs hp

/-- Settles O22: the code's pattern is the one that `modePattern` finds, and the elaboration is `updateActs` of `withMode`. -/
theorem setModeIsElaborated : Obligations.SetModeIsElaborated := fun s _ _ hs hp =>
  acceptCommand_frequencyOrMode hs _ (planSetMode_of_pattern (cfg := s.cfg) (r := s.cr) hp)

/-- The elaboration of SET_FREQUENCY with its words written out (R88, R175). -/
theorem frequencyActs_eq_frames (cfg : Cfg) (r : Word) (bank : Bank) (t : TuningWord) :
    frequencyActs cfg r bank t = frame cfg r ++ [.delay .word]
      ++ frame cfg (freqTag cfg bank ++ t.extractLsb' 0 14) ++ [.delay .word]
      ++ frame cfg (freqTag cfg bank ++ t.extractLsb' 14 14) ++ [.delay .word]
      ++ [.setFtw bank t] := by
  simp [frequencyActs, transmit, freqWord, lsbHalf, msbHalf]

/-- Settles O24: the operands pass their checks with the bank and the candidate itself, and the elaboration is `frequencyActs`. -/
theorem setFrequencyIsElaborated : Obligations.SetFrequencyIsElaborated := by
  intro s channel bank freq t hs hbank hnonneg ht
  have hfreq : checkFreq s.cfg freq = .ok t := (checkFreq_of_nonneg s.cfg hnonneg).trans (tuningWord_of_fits ht)
  have hcheck := checkFrequency_of_ok (checkChannel_of_names hbank) hfreq
  rw [← frequencyActs_eq_frames]
  exact acceptCommand_frequencyOrMode hs _ (planSetFrequency_of_check s.cr hcheck)

/-- A command is taken up when it has micro-actions to perform, that is exactly when its validation passes. -/
theorem takenUp_iff {s : State} (hs : Accepting s) (c : Command) (f : Bool) {plan : Except Cause (List Act)}
    (hplan : ∀ as, plan = .ok as → as ≠ []) :
    (∃ t, acceptCommand c f plan s = .next t ∧ t.acts ≠ []) ↔ plan.isOk = true := by
  cases plan with
  | error cause => simp [acceptCommand_rejected hs c f rfl, hs.noActs]
  | ok as => simp [acceptCommand_ok hs.noFault hs.noActs rfl, hplan as rfl]

/-- An instruction is presented with a plan that passes exactly when it is well-formed, and that then has micro-actions. -/
def PlannedAsWellFormed (s : State) (i : Instr) : Prop :=
  ∃ c f plan, exec i s = acceptCommand c f plan s ∧ plan.isOk = i.wellFormed s.cfg ∧ ∀ as, plan = .ok as → as ≠ []

theorem plannedAsWellFormed_of_commandOf {s : State} {i : Instr} {c : Command} (hc : commandOf s.cfg i = some c)
    (h6 : i ≠ .reserved6) (h7 : i ≠ .reserved7) : PlannedAsWellFormed s i := by
  cases i with
  | transfer word =>
    refine ⟨_, _, _, rfl, (isOk_planTransfer s.cfg word).trans (isOk_checkWord word), fun as hp => ?_⟩
    obtain ⟨w, rfl⟩ := planTransfer_ok hp
    exact elaborated_ne_nil (.transfer (r := s.cr) w)
  | beginCmd =>
    refine ⟨_, _, _, exec_beginCmd s, rfl, fun as hp => ?_⟩
    cases hp; exact elaborated_ne_nil (.beginCmd (r := s.cr))
  | resetCmd =>
    refine ⟨_, _, _, exec_resetCmd s, rfl, fun as hp => ?_⟩
    cases hp; exact elaborated_ne_nil .resetCmd
  | setMode mode =>
    refine ⟨_, _, _, rfl, (isOk_planSetMode s.cfg s.cr mode).trans (isOk_checkMode s.cfg mode), fun as hp => ?_⟩
    obtain ⟨p, hm, rfl⟩ := planSetMode_ok hp
    exact elaborated_ne_nil (.setMode (r := s.cr) hm)
  | setFrequency channel freq =>
    refine ⟨_, _, _, rfl,
      (isOk_planSetFrequency s.cfg s.cr channel freq).trans (isOk_checkFrequency s.cfg channel freq), fun as hp => ?_⟩
    obtain ⟨bank, t, rfl⟩ := planSetFrequency_ok hp
    exact elaborated_ne_nil (.setFrequency bank t)
  | setActiveFrequency channel =>
    refine ⟨_, _, _, rfl, (isOk_planSetActive s.cfg s.cr channel).trans (isOk_checkChannel channel), fun as hp => ?_⟩
    obtain ⟨bank, -, rfl⟩ := planSetActive_ok hp
    exact elaborated_ne_nil (.setActive (r := s.cr) bank)
  | reserved6 => exact absurd rfl h6
  | reserved7 => exact absurd rfl h7
  | dwCtrl | dwFreq0Lsb | dwFreq0Msb | dwFreq1Lsb | dwFreq1Msb => cases hc

/-- Settles O26: the reserved codes answer no next state and are not well-formed (R94), and every other command is taken up exactly
when its plan passes (`takenUp_iff`), which its well-formedness decides. -/
theorem wellFormedCommandsAreTakenUp : Obligations.WellFormedCommandsAreTakenUp := by
  intro s i c hs hc
  by_cases h6 : i = .reserved6
  · subst h6
    simp [(reservedCodesAreRefused s).1, Instr.wellFormed]
  by_cases h7 : i = .reserved7
  · subst h7
    simp [(reservedCodesAreRefused s).2, Instr.wellFormed]
  obtain ⟨c', f, plan, he, hwf, hplan⟩ := plannedAsWellFormed_of_commandOf hc h6 h7
  rw [he, ← hwf]
  exact takenUp_iff hs c' f hplan

end Sys2Proof.Proofs

/-! SUPPORT. The channel: the shape of a frame (R121 to R123), what the reference observer reads of it (R127 to R129), its golden
pair trace (R131) and the TRANSFER command (R130). -/

namespace Sys2Proof.Proofs

open Sys2Proof.Machine Sys2Proof.Safety

/-! ### The shape of a frame -/

theorem bitStep_of_first {cfg : Cfg} (h : cfg.cpha = .first) (b : Bool) :
    bitStep cfg b = [.gpioWrite .data b, .gpioWrite .clk (!cfg.cpol), .gpioWrite .clk cfg.cpol] := by
  simp [bitStep, bitTable, bitWriteAct, h]

theorem bitStep_of_second {cfg : Cfg} (h : cfg.cpha = .second) (b : Bool) :
    bitStep cfg b = [.gpioWrite .clk (!cfg.cpol), .gpioWrite .data b, .gpioWrite .clk cfg.cpol] := by
  simp [bitStep, bitTable, bitWriteAct, h]

/-- For `CPHA = 0` the edge that leaves the idle level samples (R122). -/
theorem edgeIsSampling_of_first {cfg : Cfg} (h : cfg.cpha = .first) (clk : Bool) :
    edgeIsSampling cfg clk = (clk == cfg.cpol) := by
  simp [edgeIsSampling, h]

/-- For `CPHA = 1` the edge back to the idle level samples (R123). -/
theorem edgeIsSampling_of_second {cfg : Cfg} (h : cfg.cpha = .second) (clk : Bool) :
    edgeIsSampling cfg clk = (clk == !cfg.cpol) := by
  simp [edgeIsSampling, h]

/-- Settles O32: the two rows of the table of R93, and the two rows of the sampling edge. -/
theorem bitStepOrderFollowsThePhase : Obligations.BitStepOrderFollowsThePhase := fun cfg b =>
  ⟨fun h => ⟨bitStep_of_first h b, by simp [edgeIsSampling_of_first h], by simp [edgeIsSampling_of_first h]⟩,
    fun h => ⟨bitStep_of_second h b, by simp [edgeIsSampling_of_second h], by simp [edgeIsSampling_of_second h]⟩⟩

theorem bitSteps_append (cfg : Cfg) (bs cs : List Bool) : bitSteps cfg (bs ++ cs) = bitSteps cfg bs ++ bitSteps cfg cs :=
  List.flatMap_append

theorem bitSteps_cons (cfg : Cfg) (b : Bool) (bs : List Bool) : bitSteps cfg (b :: bs) = bitStep cfg b ++ bitSteps cfg bs :=
  List.flatMap_cons

@[simp] theorem length_bitSteps (cfg : Cfg) (bs : List Bool) : (bitSteps cfg bs).length = 3 * bs.length := by
  induction bs with
  | nil => rfl
  | cons b bs ih => rw [bitSteps_cons, List.length_append, length_bitStep, ih, List.length_cons]; omega

@[simp] theorem length_sentBits (cfg : Cfg) (w : Word) : (sentBits cfg w).length = 16 := by simp [sentBits]

theorem getElem?_frame_deselect (cfg : Cfg) (w : Word) : (frame cfg w)[49]? = some (.gpioWrite .cs true) := by
  rw [frame_eq, List.getElem?_cons_succ, List.getElem?_append_right (by simp)]
  simp

/-- The frame around its bit step number `k` (R121). -/
theorem frame_split (cfg : Cfg) (w : Word) {k : Nat} (hk : k < 16) :
    ∃ before after, frame cfg w = before ++ (bitStep cfg (sentBit cfg w k) ++ after) ∧ before.length = 1 + 3 * k := by
  have hbit : (sentBits cfg w)[k]'(by simpa using hk) = sentBit cfg w k := by simp [sentBits]
  have hbits : sentBits cfg w = (sentBits cfg w).take k ++ sentBit cfg w k :: (sentBits cfg w).drop (k + 1) := by
    rw [← hbit, ← List.drop_eq_getElem_cons, List.take_append_drop]
  refine ⟨.gpioWrite .cs false :: bitSteps cfg ((sentBits cfg w).take k),
    bitSteps cfg ((sentBits cfg w).drop (k + 1)) ++ [.gpioWrite .cs true], ?_, ?_⟩
  · rw [frame_eq]
    conv_lhs => rw [hbits]
    simp [bitSteps_append, bitSteps_cons]
  · simp [Nat.min_eq_left (Nat.le_of_lt hk), Nat.add_comm]

/-- Settles O31: the frame is cut at each bit step (`frame_split`), whose three writes `CPHA` orders; a write takes effect or fails
as the driver answers. -/
theorem frameIsFiftyWritesInOrder : Obligations.FrameIsFiftyWritesInOrder := by
  refine ⟨fun cfg w => ⟨length_frame cfg w, rfl, getElem?_frame_deselect cfg w, fun k hk => ?bit⟩,
    fun s p l => ⟨fun h => ?completed, fun h => ?failed⟩⟩
  case bit =>
    obtain ⟨before, after, hframe, hlen⟩ := frame_split cfg w hk
    have hstep : ((frame cfg w).drop (1 + 3 * k)).take 3 = bitStep cfg (sentBit cfg w k) := by
      rw [hframe, ← hlen, List.drop_left, ← length_bitStep cfg (sentBit cfg w k), List.take_left]
    cases hp : cfg.cpha with
    | first => exact hstep.trans (bitStep_of_first hp _)
    | second => exact hstep.trans (bitStep_of_second hp _)
  case completed =>
    rw [performAct_completed rfl h]
    simp [applyAct]
  case failed =>
    rw [performAct_failed rfl h]
    simp

/-! ### One write, seen by the reference observer -/

theorem observe_write_data (cfg : Cfg) (fresh : Bool) {o : Observer} (hrun : o.stopped = false) (l : Bool) :
    observe cfg fresh o (.write .data l) = ({ o with data := .known l }, none) := by
  simp [observe, hrun]

/-- A clock write that is no sampling edge moves the observer's clock (R128). -/
theorem observe_write_clk {cfg : Cfg} {fresh : Bool} {o : Observer} {l : Bool} (hrun : o.stopped = false)
    (hs : takesSample cfg o (.write .clk l) = false) :
    observe cfg fresh o (.write .clk l) = ({ o with clk := l }, none) := by
  have hclock : observeClock cfg fresh o l = { o with clk := l } := by
    by_cases hl : l = o.clk
    · simp [observeClock, hl]
    · simp [observeClock, hl, hs]
  simp [observe, hrun, hclock]

/-- A sampling edge takes the known level of the data line, whatever a read of `X` would give (R128). -/
theorem observe_write_clk_sample {cfg : Cfg} {fresh : Bool} {o : Observer} {l b : Bool}
    (hs : takesSample cfg o (.write .clk l) = true) (hd : o.data = .known b) :
    observe cfg fresh o (.write .clk l) =
      ({ o with clk := l, acc := accumulate cfg.order o.acc o.n b, n := o.n + 1 }, none) := by
  have hparts := hs
  simp only [takesSample, Bool.and_eq_true, Bool.not_eq_true', bne_iff_ne] at hparts
  obtain ⟨⟨⟨hrun, hl⟩, -⟩, -⟩ := hparts
  simp [observe, observeClock, hs, hrun, hl, hd, levelBit]

/-- A fall of the select line starts a frame (R128). -/
theorem observe_write_cs_fall (cfg : Cfg) (fresh : Bool) {o : Observer} (hrun : o.stopped = false) (hcs : o.cs = true) :
    observe cfg fresh o (.write .cs false) = ({ o with cs := false, n := 0, acc := 0#16 }, none) := by
  simp [observe, observeSelect, hrun, hcs]

/-- A rise of the select line after 16 samples emits the word (R128). -/
theorem observe_write_cs_rise (cfg : Cfg) (fresh : Bool) {o : Observer} (hrun : o.stopped = false) (hcs : o.cs = false)
    (hn : o.n = 16) : observe cfg fresh o (.write .cs true) = ({ o with cs := true }, some (.word o.acc)) := by
  simp [observe, observeSelect, hrun, hcs, hn]

/-! ### The frame law -/

/-- A bit step emits nothing and leaves the observer in the middle of the frame, with one more sample, of its bit (R129). -/
theorem observeAll_bitStep (cfg : Cfg) (fresh : Bool) (data : Level) (n : Nat) (acc : Word) (b : Bool) (es : List Event) :
    observeAll cfg fresh (midFrame cfg data n acc) (actEvents (bitStep cfg b) ++ es) =
      observeAll cfg fresh (midFrame cfg (.known b) (n + 1) (accumulate cfg.order acc n b)) es := by
  cases hp : cfg.cpha with
  | first =>
    simp [bitStep_of_first hp, observeAll, observe_write_data, observe_write_clk, observe_write_clk_sample (b := b), takesSample,
      edgeIsSampling_of_first hp, midFrame]
  | second =>
    simp [bitStep_of_second hp, observeAll, observe_write_data, observe_write_clk, observe_write_clk_sample (b := b), takesSample,
      edgeIsSampling_of_second hp, midFrame]

theorem observeAll_bitSteps (cfg : Cfg) (fresh : Bool) (bs : List Bool) (data : Level) (n : Nat) (acc : Word) (es : List Event) :
    ∃ last, observeAll cfg fresh (midFrame cfg data n acc) (actEvents (bitSteps cfg bs) ++ es) =
      observeAll cfg fresh (midFrame cfg last (n + bs.length) (accumulateAll cfg.order acc n bs)) es := by
  induction bs generalizing data n acc with
  | nil => exact ⟨data, rfl⟩
  | cons b bs ih =>
    obtain ⟨last, hlast⟩ := ih (.known b) (n + 1) (accumulate cfg.order acc n b)
    refine ⟨last, ?_⟩
    rw [bitSteps_cons, actEvents_append, List.append_assoc, observeAll_bitStep, hlast, List.length_cons, accumulateAll,
      Nat.add_assoc, Nat.add_comm 1]

/-- Settles O33: the select fall brings the observer to the middle of a frame with no sample, the 16 bit steps take one sample each
(`observeAll_bitSteps`), which accumulate to the word (`accumulateAll_sentBits`), and the select rise emits it. -/
theorem observerReadsTheWordOfItsFrame : Obligations.ObserverReadsTheWordOfItsFrame := by
  intro cfg w fresh o hrun hcs hclk
  have hfall : observe cfg fresh o (.write .cs false) = (midFrame cfg o.data 0 0#16, none) := by
    rw [observe_write_cs_fall cfg fresh hrun hcs, midFrame, ← hclk, ← hrun]
  have hevents : frameEvents cfg w =
      .write .cs false :: (actEvents (bitSteps cfg (sentBits cfg w)) ++ [.write .cs true]) := by
    simp [frameEvents, frame_eq]
  obtain ⟨last, hbits⟩ := observeAll_bitSteps cfg fresh (sentBits cfg w) o.data 0 0#16 [.write .cs true]
  rw [length_sentBits, accumulateAll_sentBits] at hbits
  calc observeAll cfg fresh o (frameEvents cfg w)
      = observeAll cfg fresh (midFrame cfg o.data 0 0#16)
          (actEvents (bitSteps cfg (sentBits cfg w)) ++ [.write .cs true]) := by
        rw [hevents, observeAll, hfall, Option.toList_none, List.nil_append]
    _ = observeAll cfg fresh (midFrame cfg last 16 w) [.write .cs true] := hbits
    _ = [.word w] := by
        rw [observeAll, observe_write_cs_rise cfg fresh rfl rfl rfl]
        rfl

/-! ### The sampling edge of a bit -/

/-- The rows `CPHA = 0` of the table of R127: the sampling edge goes to the active level. -/
theorem samplingEdge_first (cpol : Bool) : (samplingEdge cpol .first == .rising) = !cpol := by cases cpol <;> rfl

/-- The rows `CPHA = 1` of the table of R127: the sampling edge goes to the idle level. -/
theorem samplingEdge_second (cpol : Bool) : (samplingEdge cpol .second == .rising) = cpol := by cases cpol <;> rfl

/-- Settles O34: of the three writes only the edge that `edgeIsSampling` names takes a sample, and the data write comes before
it. -/
theorem oneSamplingEdgePerBit : Obligations.OneSamplingEdgePerBit := by
  intro cfg b fresh o hrun hcs hclk
  cases hp : cfg.cpha with
  | first =>
    refine ⟨.write .data b, .write .clk (!cfg.cpol), .write .clk cfg.cpol, by rw [bitStep_of_first hp]; rfl, ?_⟩
    have hsample : takesSample cfg { o with data := .known b } (.write .clk (!cfg.cpol)) = true := by
      simp [takesSample, edgeIsSampling_of_first hp, hrun, hcs, hclk]
    simp only [observe_write_data cfg fresh hrun, observe_write_clk_sample hsample rfl, hsample]
    simp [takesSample, edgeIsSampling_of_first hp, samplingEdge_first]
  | second =>
    refine ⟨.write .clk (!cfg.cpol), .write .data b, .write .clk cfg.cpol, by rw [bitStep_of_second hp]; rfl, ?_⟩
    have hactive : takesSample cfg o (.write .clk (!cfg.cpol)) = false := by
      simp [takesSample, edgeIsSampling_of_second hp, hclk]
    have hdata := observe_write_data cfg fresh (o := { o with clk := !cfg.cpol }) hrun b
    simp only [observe_write_clk hrun hactive, hdata, hactive]
    simp [takesSample, edgeIsSampling_of_second hp, samplingEdge_second, hrun, hcs]

/-! ### The golden pair trace -/

/-- The pairs of micro-actions that all complete start where the pairs before them leave the lines. -/
theorem pairTrace_actEvents_append (pins : Pins) (as : List Act) (es : List Event) :
    pairTrace pins (actEvents as ++ es) = pairTrace pins (actEvents as) ++ pairTrace (pinsAfter pins as) es := by
  induction as generalizing pins with
  | nil => rfl
  | cons a as ih =>
    cases a with
    | gpioWrite p l =>
      cases p with
      | clk | data => exact congrArg (List.cons _) (ih _)
      | cs => exact ih _
    | gpioDir | delay | setCr | setFtw | setBegun => exact ih _

/-- The pairs of the bit step that sends `b`, with the data line at `d` before it (R131). -/
def goldenPairs (cfg : Cfg) (d : Level) (b : Bool) : List (Level × Level) :=
  match cfg.cpha with
  | .first => [(.known cfg.cpol, .known b), (.known (!cfg.cpol), .known b), (.known cfg.cpol, .known b)]
  | .second => [(.known (!cfg.cpol), d), (.known (!cfg.cpol), .known b), (.known cfg.cpol, .known b)]

theorem pairTrace_bitStep {cfg : Cfg} {pins : Pins} (hclk : pins.clk = .known cfg.cpol) (b : Bool) :
    pairTrace pins (actEvents (bitStep cfg b)) = goldenPairs cfg pins.data b := by
  cases hp : cfg.cpha with
  | first => simp [bitStep_of_first hp, goldenPairs, hp, pairTrace, hclk]
  | second => simp [bitStep_of_second hp, goldenPairs, hp, pairTrace]

/-- The data level before the `k`-th bit step of a frame of `w` that found the data line at `d`: the bit before (R126, R131). -/
def levelBefore (cfg : Cfg) (w : Word) (d : Level) (k : Nat) : Level := if k = 0 then d else .known (sentBit cfg w (k - 1))

/-- The bit steps of the first `k` bits of a frame of `w`. -/
def firstSteps (cfg : Cfg) (w : Word) (k : Nat) : List Act := bitSteps cfg ((List.range k).map (sentBit cfg w))

theorem firstSteps_succ (cfg : Cfg) (w : Word) (k : Nat) :
    firstSteps cfg w (k + 1) = firstSteps cfg w k ++ bitStep cfg (sentBit cfg w k) := by
  simp [firstSteps, List.range_succ, bitSteps]

theorem pinsAfter_firstSteps {cfg : Cfg} (w : Word) (k : Nat) {pins : Pins} (hclk : pins.clk = .known cfg.cpol) :
    pinsAfter pins (firstSteps cfg w k) =
      { clk := .known cfg.cpol, data := levelBefore cfg w pins.data k, cs := pins.cs } := by
  cases k with
  | zero => rw [← hclk]; rfl
  | succ k =>
    rw [firstSteps_succ, pinsAfter_append, pinsAfter_bitStep, firstSteps, (pinsAfter_bitSteps cfg _ hclk).2]
    rfl

theorem pairTrace_firstSteps {cfg : Cfg} (w : Word) (k : Nat) {pins : Pins} (hclk : pins.clk = .known cfg.cpol) :
    pairTrace pins (actEvents (firstSteps cfg w k)) =
      (List.range k).flatMap fun i => goldenPairs cfg (levelBefore cfg w pins.data i) (sentBit cfg w i) := by
  induction k with
  | zero => rfl
  | succ k ih =>
    rw [firstSteps_succ, actEvents_append, pairTrace_actEvents_append, ih, pinsAfter_firstSteps w k hclk, pairTrace_bitStep rfl,
      List.range_succ, List.flatMap_append, List.flatMap_singleton]

theorem frame_eq_firstSteps (cfg : Cfg) (w : Word) :
    frame cfg w = .gpioWrite .cs false :: (firstSteps cfg w 16 ++ [.gpioWrite .cs true]) := frame_eq cfg w

/-- Settles O35: the pairs of the 16 bit steps (`pairTrace_firstSteps`); the two select writes add none. -/
theorem goldenPairsOfAFrame : Obligations.GoldenPairsOfAFrame := by
  intro cfg w pins hclk
  have hframe : pairTrace pins (frameEvents cfg w) =
      (List.range 16).flatMap fun k => goldenPairs cfg (levelBefore cfg w pins.data k) (sentBit cfg w k) := by
    rw [frameEvents, frame_eq_firstSteps, actEvents_gpioWrite, actEvents_append, pairTrace, pairTrace_actEvents_append,
      pairTrace_firstSteps (pins := { pins with cs := .known false }) w 16 hclk]
    exact List.append_nil _
  rw [hframe]
  cases hp : cfg.cpha <;> simp only [goldenPairs, hp, levelBefore]

/-! ### TRANSFER -/

theorem planTransfer_of_inRange (cfg : Cfg) {word : Int} (h0 : 0 ≤ word) (h1 : word ≤ 65535) :
    planTransfer cfg word = .ok (frame cfg (BitVec.ofInt 16 word)) := by
  simp [planTransfer, checkWord, h0, h1]

/-- Settles O19: the operand passes its check, and TRANSFER is no frequency or mode command. -/
theorem transferIsElaborated : Obligations.TransferIsElaborated := fun s word hs h0 h1 =>
  (acceptCommand_ok hs.noFault hs.noActs (planTransfer_of_inRange s.cfg h0 h1)).trans (by simp [loadActs])

/-- A frame leaves the clock idle, the last bit on the data line and the select line high (R125, R126). -/
theorem pinsAfter_frame_eq (cfg : Cfg) (w : Word) {pins : Pins} (hclk : pins.clk = .known cfg.cpol) :
    pinsAfter pins (frame cfg w) = { clk := .known cfg.cpol, data := .known (sentBit cfg w 15), cs := .known true } := by
  rw [frame_eq_firstSteps, pinsAfter_cons, pinsAfter_append,
    pinsAfter_firstSteps (pins := pinsAfter pins [.gpioWrite .cs false]) w 16 hclk]
  rfl

/-- The micro-actions of a frame up to its select rise. -/
def untilRise (cfg : Cfg) (w : Word) : List Act := .gpioWrite .cs false :: bitSteps cfg (sentBits cfg w)

theorem frame_eq_untilRise (cfg : Cfg) (w : Word) : frame cfg w = untilRise cfg w ++ [.gpioWrite .cs true] := frame_eq cfg w

/-- The 49 micro-actions before the select rise emit nothing, so that the device has no turn among them. -/
theorem run_untilRise {cfg : Cfg} {s : State} {w : Word} {rest : List Act} (h : Ready cfg s)
    (hrem : remaining s = untilRise cfg w ++ rest) (hne : rest ≠ []) :
    ∃ ans, (∀ x ∈ ans, x = DriverAnswer.completed) ∧ (applyActs (untilRise cfg w) s).rx = [] ∧
      Host.Core.run Sys2Proof.core 49 s = .next { applyActs (untilRise cfg w) s with pc := s.pc + 49, answers := ans } := by
  obtain ⟨rfl, hf, hr, hc, hclk, hcs, hs⟩ := h
  rw [untilRise, List.cons_append] at hrem
  have hsilent : ∀ a ∈ bitSteps s.cfg (sentBits s.cfg w), ∀ l, a ≠ .gpioWrite .cs l := by
    rintro a ha l rfl
    obtain ⟨p, l', he, hp⟩ := mem_bitSteps ha
    cases he
    exact hp rfl
  have hobs : s.obs.cs = true := by simpa [hcs] using hs.cs.symm
  have hrx : (applyAct (.gpioWrite .cs false) s).rx = [] := by
    simpa [applyAct, observe_write_cs_fall, hs.running, hobs] using hr
  obtain ⟨ans1, hans1, hfall⟩ := step_next hf hr hc hrem (by simp [hne])
  obtain ⟨ans2, hans2, hbits⟩ := run_silent (s := { applyAct (.gpioWrite .cs false) s with pc := s.pc + 1, answers := ans1 })
    (by simpa using hf) hrx hans1 (by simpa [remaining] using congrArg List.tail hrem) hne hsilent
  rw [applyActs_withPlace, length_bitSteps, length_sentBits] at hbits
  exact ⟨ans2, hans2, by rw [untilRise, applyActs_cons, applyActs_rx hsilent, hrx], (run_succ 48 hfall).trans hbits⟩

/-- The last micro-action of a command, a write that the driver completes. -/
theorem step_lastWrite {s : State} {p : Line} {l : Bool} (hf : s.fault = none) (hr : s.rx = []) (hc : AllComplete s)
    (ha : s.acts[s.pc]? = some (.gpioWrite p l)) (hl : s.acts.length = s.pc + 1) :
    step s = .next (completeCommand (applyAct (.gpioWrite p l) (takeAnswer s))) := by
  rw [step_lastAct hf hr hc ha hl, performAct_completed rfl (nextAnswer_of_allComplete hc)]

/-- The 50 micro-actions of a frame that is its whole command: with the select rise the command completes. -/
theorem run_closing_frame {cfg : Cfg} {s : State} {w : Word} (h : Ready cfg s) (hacts : s.acts = frame cfg w) (hpc : s.pc = 0) :
    ∃ ans, Host.Core.run Sys2Proof.core 50 s =
      .next (completeCommand { applyActs (frame cfg w) s with answers := ans }) := by
  obtain ⟨ans, hans, hrx, hrun⟩ := run_untilRise (rest := [.gpioWrite .cs true]) h
    (by rw [remaining, hacts, hpc, List.drop_zero, frame_eq_untilRise]) (by simp)
  have hrise := step_lastWrite (s := { applyActs (untilRise cfg w) s with pc := s.pc + 49, answers := ans })
    (by simpa using h.noFault) hrx hans (by simpa [hacts, hpc] using getElem?_frame_deselect cfg w) (by simp [hacts, hpc])
  rw [takeAnswer, applyAct_withPlace] at hrise
  refine ⟨ans.tail, (run_add 1 hrun).trans ((run_succ 0 hrise).trans ?_)⟩
  rw [frame_eq_untilRise, applyActs_append]
  rfl

/-- Settles O37: the frame is the whole command (`run_closing_frame`), and performing it changes only the lines and the observation
(`applyActs_frame`). -/
theorem transferCompletes : Obligations.TransferCompletes := by
  intro s w hs hn
  have haccept := acceptCommand_ok (c := { bareCommand 0b000#3 with word := w.toNat }) (f := false) hs.noFault hs.noActs
    (planTransfer_of_inRange s.cfg (word := w.toNat) (by omega) (by omega))
  rw [BitVec.ofInt_natCast, BitVec.ofNat_toNat, BitVec.setWidth_eq] at haccept
  have hready := ready_loadActs hs hn false (frame s.cfg w)
  obtain ⟨ans, hrun⟩ := run_closing_frame hready rfl rfl
  have hframe := applyActs_frame w hready.synced hready.clk hready.cs
  have hpins := pinsAfter_frame_eq s.cfg w hs.clk
  rw [loadActs_cfg] at hframe
  rw [hframe] at hrun
  refine ⟨_, _, haccept, hrun, rfl, ?_, rfl, hs.noFault, rfl, rfl, rfl, rfl, rfl, rfl, hpins⟩
  simp [completeCommand, hs.noReceived]

end Sys2Proof.Proofs

/-! SUPPORT. The laws of the register commands (R163, R166), the elaborations of the commands that write `CR` (R153, R156, R165), and
the least duration of every command (R260). -/

namespace Sys2Proof.Proofs

open Sys2Proof.Machine Sys2Proof.Safety

/-! ### The laws of the register -/

/-- Two codes with the same pattern are the same code: the patterns of a valid configuration are distinct (R35, R85). -/
theorem modePattern_injective {cfg : Cfg} (h : ValidCfg cfg) {mode other : BitVec 3} {p : Word}
    (hm : modePattern cfg mode = some p) (ho : modePattern cfg other = some p) : other = mode := by
  obtain ⟨hlt, -⟩ := List.getElem?_eq_some_iff.mp ho
  exact BitVec.eq_of_toNat_eq ((List.getElem?_inj hlt h.patternsDistinct).mp (ho.trans hm.symm))

/-- SET_MODE twice is SET_MODE once (R163). -/
theorem withMode_withMode {cfg : Cfg} {p : Word} (hp : hasBits p (~~~ cfg.modeMask) = false) (r : Word) :
    withMode cfg (withMode cfg r p) p = withMode cfg r p := by
  obtain ⟨hkept, -⟩ := withMode_fields (r := r) hp
  exact congrArg (setBits · p) hkept

/-- Settles O45: under the mask the result is the pattern (`withMode_fields`), and no other code has that pattern. -/
theorem setModeLaw : Obligations.SetModeLaw := by
  intro cfg r mode p hvalid hm
  have hv := ValidCfg.of_cfgValid hvalid
  have hp := pattern_within hv hm
  obtain ⟨-, hwritten⟩ := withMode_fields (r := r) hp
  refine ⟨rfl, withMode_withMode hp r, fun other q ho => ?_⟩
  rw [hwritten]
  constructor
  · rintro rfl
    exact modePattern_injective hv hm ho
  · rintro rfl
    exact Option.some.inj (hm.symm.trans ho)

/-- SET_ACTIVE_FREQUENCY 1 and then 0 is to clear `FSELECT` (R166). -/
theorem withActiveBank_pair (cfg : Cfg) (r : Word) :
    withActiveBank cfg (withActiveBank cfg r .bank1) .bank0 = clearBits r (maskFselect cfg) :=
  clearBits_setBits r (maskFselect cfg)

/-- Settles O46: the pair clears `FSELECT` (`withActiveBank_pair`), which changes nothing exactly when it was clear. -/
theorem setActiveFrequencyPairLaw : Obligations.SetActiveFrequencyPairLaw := by
  intro cfg r _
  rw [withActiveBank_pair]
  refine ⟨hasBits_clearBits_self r _, clearBits_of_hasBits_eq_false (hasBits_clearBits_self r _), fun h => ?_,
    clearBits_of_hasBits_eq_false⟩
  rw [← h]
  exact hasBits_clearBits_self r _

/-! ### The elaborations that write the register -/

/-- A command that is no frequency or mode command is loaded, and leaves the mark of R250's premise (assumption 10). -/
theorem acceptCommand_unmarked {s : State} (hs : Accepting s) (c : Command) (as : List Act) :
    acceptCommand c false (.ok as) s = .next { s with acts := as, pc := 0 } :=
  (acceptCommand_ok hs.noFault hs.noActs rfl).trans (by simp [loadActs])

/-- Settles O20: the elaboration of RESET, from `B28`, stands inside that of BEGIN (`beginActs`). -/
theorem beginIsElaborated : Obligations.BeginIsElaborated := by
  intro s hs
  rw [exec_beginCmd, acceptCommand_unmarked hs]
  simp [beginActs, resetActs, transmit, setBits, clearBits]

/-- Settles O21: the two transmissions of `resetActs`, written out. -/
theorem resetIsElaborated : Obligations.ResetIsElaborated := by
  intro s hs
  rw [exec_resetCmd, acceptCommand_unmarked hs]
  simp [resetActs, transmit, setBits, clearBits]

/-- Settles O23: each channel names its bank (`planSetActive_of_bank`), and the elaboration is `updateActs` of `withActiveBank`. -/
theorem setActiveFrequencyIsElaborated : Obligations.SetActiveFrequencyIsElaborated := fun s hs =>
  ⟨acceptCommand_frequencyOrMode hs _ (planSetActive_of_bank s.cfg s.cr .bank1),
    acceptCommand_frequencyOrMode hs _ (planSetActive_of_bank s.cfg s.cr .bank0)⟩

/-! ### The least duration -/

theorem leastDuration_append (cfg : Cfg) (as bs : List Act) :
    leastDuration cfg (as ++ bs) = leastDuration cfg as + leastDuration cfg bs := by
  simp [leastDuration]

@[simp] theorem leastDuration_nil (cfg : Cfg) : leastDuration cfg [] = 0 := rfl

@[simp] theorem leastDuration_cons (cfg : Cfg) (a : Act) (as : List Act) :
    leastDuration cfg (a :: as) = actTime cfg a + leastDuration cfg as := by
  simp [leastDuration]

/-- A frame is made of writes, of which no least duration is given (R132). -/
@[simp] theorem leastDuration_frame (cfg : Cfg) (w : Word) : leastDuration cfg (frame cfg w) = 0 := by
  refine List.sum_eq_zero fun x hx => ?_
  obtain ⟨a, ha, rfl⟩ := List.mem_map.mp hx
  obtain ⟨p, l, rfl⟩ := mem_frame ha
  rfl

/-- A transmission waits once between words (R150). -/
@[simp] theorem leastDuration_transmit (cfg : Cfg) (w : Word) : leastDuration cfg (transmit cfg w) = cfg.tWord := by
  simp [transmit, leastDuration_append, actTime, delayTime]

theorem leastDuration_updateActs (cfg : Cfg) (w : Word) : leastDuration cfg (updateActs cfg w) = cfg.tWord := by
  simp [updateActs, actTime]

theorem leastDuration_resetActs (cfg : Cfg) (r : Word) :
    leastDuration cfg (resetActs cfg r) = 2 * cfg.tWord + cfg.tSettle := by
  simp only [resetActs, leastDuration_cons, leastDuration_append, leastDuration_transmit, actTime, delayTime]
  ring

theorem leastDuration_frequencyActs (cfg : Cfg) (r : Word) (bank : Bank) (t : TuningWord) :
    leastDuration cfg (frequencyActs cfg r bank t) = 3 * cfg.tWord := by
  simp only [frequencyActs, leastDuration_cons, leastDuration_nil, leastDuration_append, leastDuration_transmit, actTime]
  ring

/-- BEGIN waits as RESET does, and once more for its first word (R156). -/
theorem leastDuration_beginActs (cfg : Cfg) : leastDuration cfg (beginActs cfg) = 3 * cfg.tWord + cfg.tSettle := by
  simp only [beginActs, leastDuration_cons, leastDuration_nil, leastDuration_append, leastDuration_transmit,
    leastDuration_resetActs, actTime]
  ring

/-- Settles O44: one duration for each elaboration. -/
theorem leastDurationIsTheDelays : Obligations.LeastDurationIsTheDelays := fun cfg w r bank t =>
  ⟨leastDuration_frame cfg w, leastDuration_updateActs cfg w, leastDuration_resetActs cfg r,
    leastDuration_frequencyActs cfg r bank t, leastDuration_beginActs cfg⟩

end Sys2Proof.Proofs

/-! SUPPORT. The arithmetic of the tuning word: the default rounding as nearest integer with ties to even (R170, R173, R174), saturation
(R170), and the two halves (R171, R172). -/

namespace Sys2Proof.Proofs

open Sys2Proof.Machine Sys2Proof.Safety

/-! ### Nearest integers, ties to even -/

/-- `t` is a nearest integer to `x`, and the even one on a tie (R173). -/
def NearestEven (t : ℕ) (x : ℚ) : Prop := |(t : ℚ) - x| ≤ 1 / 2 ∧ (|(t : ℚ) - x| = 1 / 2 → Even t)

theorem nearestEven_of_lt {t : ℕ} {x : ℚ} (h : |(t : ℚ) - x| < 1 / 2) : NearestEven t x :=
  ⟨h.le, fun htie => absurd htie h.ne⟩

theorem nearestEven_of_even {t : ℕ} {x : ℚ} (h : |(t : ℚ) - x| ≤ 1 / 2) (ht : Even t) : NearestEven t x := ⟨h, fun _ => ht⟩

/-- Rounding is monotone: were the words of `x ≤ y` in the wrong order, they would be neighbours, `x` and `y` both the tie between
them, and both words even. -/
theorem NearestEven.le_of_le {t u : ℕ} {x y : ℚ} (ht : NearestEven t x) (hu : NearestEven u y) (hxy : x ≤ y) : t ≤ u := by
  obtain ⟨hnear_t, heven_t⟩ := ht
  obtain ⟨hnear_u, heven_u⟩ := hu
  by_contra hlt
  have hcast : (u : ℚ) + 1 ≤ t := by exact_mod_cast not_le.mp hlt
  obtain ⟨-, htx⟩ := abs_le.mp hnear_t
  obtain ⟨huy, -⟩ := abs_le.mp hnear_u
  have htie_t : (t : ℚ) - x = 1 / 2 := by linarith
  have htie_u : (u : ℚ) - y = -(1 / 2) := by linarith
  have hsucc : t = u + 1 := by exact_mod_cast (by linarith : (t : ℚ) = u + 1)
  have hteven : Even t := heven_t (by rw [htie_t]; norm_num)
  have hueven : Even u := heven_u (by rw [htie_u]; norm_num)
  rw [hsucc, Nat.even_add_one] at hteven
  exact hteven hueven

theorem NearestEven.unique {t u : ℕ} {x : ℚ} (ht : NearestEven t x) (hu : NearestEven u x) : t = u :=
  le_antisymm (ht.le_of_le hu le_rfl) (hu.le_of_le ht le_rfl)

/-- An even integer is reached exactly from the tie below it on. -/
theorem NearestEven.le_iff_of_even {t m : ℕ} {x : ℚ} (ht : NearestEven t x) (hm : Even m) : m ≤ t ↔ (m : ℚ) - 1 / 2 ≤ x := by
  have htie : NearestEven m ((m : ℚ) - 1 / 2) := nearestEven_of_even (by norm_num) hm
  refine ⟨fun hle => ?_, htie.le_of_le ht⟩
  obtain ⟨hnear, -⟩ := ht
  obtain ⟨-, htx⟩ := abs_le.mp hnear
  have hcast : (m : ℚ) ≤ t := by exact_mod_cast hle
  linarith

/-! ### The default rounding -/

/-- The default rounding compares twice the remainder with the divisor: below it the quotient is the nearest integer, above it the
next one, and on equality the even one of the two (R173). -/
theorem nearestEven_roundNearestTiesEven (n : ℕ) {d : ℕ} (hd : 0 < d) : NearestEven (roundNearestTiesEven n d) ((n : ℚ) / d) := by
  have hd' : (0 : ℚ) < d := by exact_mod_cast hd
  have hsplit : (n : ℚ) / d = (n / d : ℕ) + ((n % d : ℕ) : ℚ) / d := by
    rw [eq_comm, ← mul_left_inj' hd'.ne', add_mul, div_mul_cancel₀ _ hd'.ne', div_mul_cancel₀ _ hd'.ne']
    exact_mod_cast Nat.div_add_mod' n d
  have hnonneg : (0 : ℚ) ≤ ((n % d : ℕ) : ℚ) / d := by positivity
  have hlt : ((n % d : ℕ) : ℚ) / d < 1 := (div_lt_one hd').mpr (by exact_mod_cast Nat.mod_lt n hd)
  rw [roundNearestTiesEven, hsplit]
  split_ifs with hbelow habove heven
  · have : ((n % d : ℕ) : ℚ) / d < 1 / 2 := (div_lt_div_iff₀ hd' two_pos).mpr (by exact_mod_cast (by omega))
    exact nearestEven_of_lt (abs_lt.mpr (by constructor <;> linarith))
  · have : 1 / 2 < ((n % d : ℕ) : ℚ) / d := (div_lt_div_iff₀ two_pos hd').mpr (by exact_mod_cast (by omega))
    exact nearestEven_of_lt (abs_lt.mpr (by push_cast; constructor <;> linarith))
  all_goals
    have htie : ((n % d : ℕ) : ℚ) / d = 1 / 2 := (div_eq_div_iff hd'.ne' two_ne_zero).mpr (by exact_mod_cast (by omega))
    rw [htie]
  · exact nearestEven_of_even (by norm_num) (Nat.even_iff.mpr heven)
  · exact nearestEven_of_even (by push_cast; norm_num) (by rw [Nat.even_add_one, Nat.even_iff]; exact heven)

theorem num_toNat_cast {q : ℚ} (h : 0 ≤ q) : (q.num.toNat : ℚ) = q.num := by
  exact_mod_cast Int.toNat_of_nonneg (Rat.num_nonneg.mpr h)

/-- The numerator and the denominator of the model are those of the exact quotient (R170). -/
theorem quotientNum_div_quotientDen {cfg : Cfg} {freq : Rat} (hm : 0 < cfg.mclkHz) (hf : 0 ≤ freq) :
    (quotientNum cfg freq : ℚ) / quotientDen cfg freq = freq * 2 ^ 28 / cfg.mclkHz := by
  have hden : (cfg.mclkHz.num : ℚ) ≠ 0 := by exact_mod_cast (Rat.num_pos.mpr hm).ne'
  conv_rhs => rw [← Rat.num_div_den freq, ← Rat.num_div_den cfg.mclkHz]
  rw [quotientNum, quotientDen, Nat.cast_mul, Nat.cast_mul, Nat.cast_mul, num_toNat_cast hf, num_toNat_cast hm.le]
  field_simp
  norm_num

theorem quotientDen_pos {cfg : Cfg} (hm : 0 < cfg.mclkHz) (freq : Rat) : 0 < quotientDen cfg freq :=
  Nat.mul_pos freq.den_pos (Int.pos_iff_toNat_pos.mp (Rat.num_pos.mpr hm))

/-- The candidate of the default rounding, against the exact quotient (R170, R173). -/
theorem nearestEven_tuningCandidate {cfg : Cfg} {freq : Rat} (hm : 0 < cfg.mclkHz) (hr : cfg.rounding = .nearestTiesEven)
    (hf : 0 ≤ freq) : NearestEven (tuningCandidate cfg freq) (freq * 2 ^ 28 / cfg.mclkHz) := by
  rw [tuningCandidate, hr, ← quotientNum_div_quotientDen hm hf]
  exact nearestEven_roundNearestTiesEven _ (quotientDen_pos hm freq)

/-- Settles O49. -/
theorem candidateIsTheNearestInteger : Obligations.CandidateIsTheNearestInteger := fun _ _ hv hr hf =>
  nearestEven_tuningCandidate (ValidCfg.of_cfgValid hv).clock hr hf

/-- Settles O50: each clause is one about nearest integers with ties to even, at the exact quotient. -/
theorem candidateIsMonotone : Obligations.CandidateIsMonotone := by
  refine ⟨fun cfg f g hv hr hf => ?_, ?_⟩
  · have hm := (ValidCfg.of_cfgValid hv).clock
    have near {freq : Rat} := nearestEven_tuningCandidate (freq := freq) hm hr
    refine ⟨fun hfg => (near hf).le_of_le (near (hf.trans hfg)) (by gcongr), ?_, ?_⟩
    · exact (near le_rfl).unique (nearestEven_of_lt (by norm_num))
    · exact_mod_cast (near hf).le_iff_of_even (m := 2 ^ 28) (by decide)
  · have hnear := nearestEven_tuningCandidate (cfg := defaultCfg) (freq := 1000) (by decide) rfl (by decide)
    exact hnear.unique (nearestEven_of_lt (by norm_num [defaultCfg, abs_lt]))

/-! ### Saturation -/

/-- A candidate of more than 28 bits becomes the maximum under SATURATE (R170). -/
theorem tuningWord_of_saturate {cfg : Cfg} {freq : Rat} (h : 2 ^ 28 ≤ tuningCandidate cfg freq)
    (hpolicy : cfg.overflowPolicy = .saturate) : tuningWord cfg freq = .ok 0x0FFFFFFF#28 := by
  rw [tuningWord, if_neg (by rw [maxTuning]; omega), hpolicy]
  rfl

/-- Settles O27: the operands pass their checks with the maximum as the tuning word. -/
theorem saturationLoadsTheMaximum : Obligations.SaturationLoadsTheMaximum := by
  intro s channel bank freq hs hbank hnonneg hover hpolicy
  have hfreq := (checkFreq_of_nonneg s.cfg hnonneg).trans (tuningWord_of_saturate hover hpolicy)
  have hcheck := checkFrequency_of_ok (checkChannel_of_names hbank) hfreq
  exact ⟨_, acceptCommand_frequencyOrMode hs _ (planSetFrequency_of_check s.cr hcheck), rfl, rfl, rfl⟩

/-! ### The halves of a tuning word -/

theorem lsbHalf_toNat (t : TuningWord) : (lsbHalf t).toNat = t.toNat &&& 0x3FFF := by
  rw [lsbHalf, BitVec.extractLsb'_toNat, Nat.shiftRight_zero]
  exact (Nat.and_two_pow_sub_one_eq_mod _ 14).symm

theorem msbHalf_toNat (t : TuningWord) : (msbHalf t).toNat = (t.toNat >>> 14) &&& 0x3FFF := by
  rw [msbHalf, BitVec.extractLsb'_toNat]
  exact (Nat.and_two_pow_sub_one_eq_mod _ 14).symm

/-- A half is zero-extended under its tag (R171). -/
theorem freqWord_toNat (cfg : Cfg) (bank : Bank) (half : Half) :
    (freqWord cfg bank half).toNat = (freqTag cfg bank).toNat <<< 14 ||| half.toNat := BitVec.toNat_append _ _

/-- Settles O47: the value of each half, alone and under its tag. -/
theorem halvesOfATuningWord : Obligations.HalvesOfATuningWord := fun cfg bank t =>
  ⟨lsbHalf_toNat t, msbHalf_toNat t, (freqWord_toNat cfg bank _).trans (congrArg _ (lsbHalf_toNat t)),
    (freqWord_toNat cfg bank _).trans (congrArg _ (msbHalf_toNat t))⟩

/-- The mask `0x3FFF` takes the payload of a word (R88). -/
theorem toNat_and_payloadMask (w : Word) : w.toNat &&& 0x3FFF = (wordPayload w).toNat := by
  rw [wordPayload, BitVec.extractLsb'_toNat, Nat.shiftRight_zero]
  exact Nat.and_two_pow_sub_one_eq_mod _ 14

/-- Settles O48: the payloads of the two words are the two halves, which joined are the word (`joinHalves_halves`). -/
theorem halvesReassemble : Obligations.HalvesReassemble := by
  intro cfg bank t
  refine ⟨?_, joinHalves_halves t⟩
  rw [toNat_and_payloadMask, toNat_and_payloadMask, wordPayload_freqWord, wordPayload_freqWord, ← BitVec.toNat_append]
  exact congrArg BitVec.toNat (joinHalves_halves t)

end Sys2Proof.Proofs

/-! SUPPORT. A GPIO call that fails: the step of the command it ends (R206, R209), and the construction it ends (R206, R240). -/

namespace Sys2Proof.Proofs

open Sys2Proof.Machine Sys2Proof.Safety

/-! ### The command whose call fails -/

/-- A GPIO micro-action whose call fails is the last step of its command, and the device may hold anything (R46, R206). -/
theorem step_of_failed {s : State} {a : Act} {p : Line} (hf : s.fault = none) (hr : s.rx = []) (ha : s.acts[s.pc]? = some a)
    (hl : actLine a = some p) (hc : nextAnswer s = .failed) :
    step s = .next (loseDevice (raiseIoFailure p (takeAnswer s))) := by
  have hne : s.acts ≠ [] := by intro h0; simp [h0] at ha
  rw [step, fetch_act hf hr hne]
  simp only [sequencerStep, ha, performAct_failed hl hc, raiseIoFailure_fault]

/-- Settles O13: the step is `raiseIoFailure` (`step_of_failed`), which writes the lines and the fault and drops the micro-actions,
and the device's loss reaches no part of the block. -/
theorem failedCallEndsTheCommand : Obligations.FailedCallEndsTheCommand := by
  intro s a p hf hr ha hl hc
  exact ⟨_, step_of_failed hf hr ha hl hc, rfl, rfl, rfl, by simp, rfl, rfl, rfl, rfl, rfl, rfl, rfl⟩

/-! ### The first call that fails in a list of GPIO calls -/

theorem performActs_cons_of_noFault {a : Act} {s : State} (h : (performAct a s).fault = none) (as : List Act) :
    performActs (a :: as) s = performActs as (performAct a s) := by
  simp only [performActs, h]

theorem performActs_cons_of_fault {a : Act} {p : Line} {s : State} (h : (performAct a s).fault = some p) (as : List Act) :
    performActs (a :: as) s = performAct a s := by
  simp only [performActs, h]

/-- GPIO calls up to the first that fails: the calls before it have left their events, the failure ends the list on its own line, and
what comes later is not performed (R13, R206). -/
theorem performActs_of_firstFailure {done later : List Act} {a : Act} {p : Line} {rest : List DriverAnswer} {s : State}
    (hdone : ∀ b ∈ done, actLine b ≠ none) (hl : actLine a = some p) (hf : s.fault = none)
    (hans : s.answers = List.replicate done.length .completed ++ .failed :: rest) :
    ∃ u, performActs (done ++ a :: later) s = raiseIoFailure p u ∧ u.trace = s.trace ++ actEvents done := by
  induction done generalizing s with
  | nil =>
    have ha : performAct a s = raiseIoFailure p (takeAnswer s) := performAct_failed hl (by simp [nextAnswer, hans])
    exact ⟨takeAnswer s, by rw [List.nil_append, performActs_cons_of_fault (p := p) (by rw [ha]; rfl), ha], by simp⟩
  | cons b bs ih =>
    obtain ⟨q, hq⟩ := Option.ne_none_iff_exists'.mp (hdone b List.mem_cons_self)
    have hb : performAct b s = applyAct b (takeAnswer s) :=
      performAct_completed hq (by simp [nextAnswer, hans, List.replicate_succ])
    have hfb : (performAct b s).fault = none := by simpa [hb]
    obtain ⟨u, hu, htrace⟩ := ih (s := performAct b s) (fun c hc => hdone c (List.mem_cons_of_mem b hc)) hfb
      (by simp [hb, hans, List.replicate_succ])
    refine ⟨u, by rw [List.cons_append, performActs_cons_of_noFault hfb, hu], ?_⟩
    rw [htrace, hb, applyAct_trace, takeAnswer_trace, List.append_assoc, ← actEvents_singleton, ← actEvents_append,
      List.singleton_append]

/-! ### The calls of construction -/

/-- Where every micro-action has its event, the first ones have the first events (R15). -/
theorem actEvents_take {as : List Act} {es : List Event} (h : as.map actEvent = es.map some) (k : Nat) :
    actEvents (as.take k) = es.take k := by
  have htake : (as.take k).map actEvent = (es.take k).map some := by rw [List.map_take, h, List.map_take]
  calc actEvents (as.take k) = ((as.take k).map actEvent).filterMap id := by rw [List.filterMap_map]; rfl
    _ = (es.take k).filterMap some := by rw [htake, List.filterMap_map]; rfl
    _ = es.take k := List.filterMap_some

/-- Construction makes GPIO calls only, and never selects the device (R240). -/
theorem mem_constructionActs {cfg : Cfg} {a : Act} (h : a ∈ constructionActs cfg) :
    (∃ p, a = .gpioDir p) ∨ ∃ p l, a = .gpioWrite p l ∧ Event.write p l ≠ .write .cs false := by
  simp only [constructionActs, List.mem_cons, List.not_mem_nil, or_false] at h
  rcases h with rfl | rfl | rfl | rfl | rfl
  · exact .inl ⟨_, rfl⟩
  · exact .inl ⟨_, rfl⟩
  · exact .inl ⟨_, rfl⟩
  · exact .inr ⟨_, _, rfl, by simp⟩
  · exact .inr ⟨_, _, rfl, by simp⟩

theorem actLine_of_mem_constructionActs {cfg : Cfg} {a : Act} (h : a ∈ constructionActs cfg) : actLine a ≠ none := by
  rcases mem_constructionActs h with ⟨p, rfl⟩ | ⟨p, l, rfl, -⟩ <;> simp [actLine]

/-- The call at each place of construction asks about the line that R240 gives that place. -/
theorem exists_constructionAct {k : Nat} {p : Line} (cfg : Cfg)
    (h : [Line.clk, Line.data, Line.cs, Line.cs, Line.clk][k]? = some p) :
    ∃ a, (constructionActs cfg)[k]? = some a ∧ actLine a = some p := by
  have hlines : (constructionActs cfg).map actLine = [Line.clk, Line.data, Line.cs, Line.cs, Line.clk].map some := rfl
  have hk := congrArg (·[k]?) hlines
  simpa only [List.getElem?_map, h, Option.map_some, Option.map_eq_some_iff] using hk

/-! ### What construction leaves, wherever it ends -/

/-- A deselected observer takes no sample (R128). -/
theorem takesSample_of_deselected {o : Observer} (h : o.cs = true) (cfg : Cfg) (e : Event) : takesSample cfg o e = false := by
  unfold takesSample
  split
  · simp [h]
  · rfl

@[simp] theorem observeClock_cs (cfg : Cfg) (fresh : Bool) (o : Observer) (l : Bool) :
    (observeClock cfg fresh o l).cs = o.cs := by
  unfold observeClock
  split
  · rfl
  · split <;> rfl

/-- Nothing but a fall of the select line selects the observer (R128). -/
theorem observe_cs_of_deselected {o : Observer} {e : Event} (h : o.cs = true) (he : e ≠ .write .cs false) (cfg : Cfg)
    (fresh : Bool) : (observe cfg fresh o e).1.cs = true := by
  unfold observe
  split
  · exact h
  · cases e with
    | write p l =>
      cases p with
      | clk => exact (observeClock_cs cfg fresh o l).trans h
      | data => exact h
      | cs =>
        obtain rfl : l = true := by simpa using he
        simp [observeSelect, h]
    | fail | dir | delay | status => exact h

/-- A block that has written no register and sent nothing: `CR` zero, no tuning word loaded, BEGIN to come, the device as given and
not selected (R240, R243). -/
structure Unstarted (dev : Device) (free : Nat) (s : State) : Prop where
  cr : s.cr = 0#16
  ftw0 : s.ftw0 = none
  ftw1 : s.ftw1 = none
  begun : s.begun = false
  dev : s.dev = dev
  free : s.free = free
  deselected : s.obs.cs = true

theorem unstarted_blankState (cfg : Cfg) (answers : List DriverAnswer) (dev : Device) (free : Nat) :
    Unstarted dev free (blankState cfg answers dev free) := ⟨rfl, rfl, rfl, rfl, rfl, rfl, rfl⟩

theorem Unstarted.emit {dev : Device} {free : Nat} {s : State} {e : Event} (h : Unstarted dev free s)
    (he : e ≠ .write .cs false) : Unstarted dev free (emit e s) where
  cr := h.cr
  ftw0 := h.ftw0
  ftw1 := h.ftw1
  begun := h.begun
  dev := h.dev
  free := by simp [samplesUnknown, takesSample_of_deselected h.deselected, h.free]
  deselected := observe_cs_of_deselected h.deselected he _ _

/-- The lines and directions, the micro-actions, the fault and the driver's answers have no part in it. -/
theorem Unstarted.update {dev : Device} {free : Nat} {s : State} (h : Unstarted dev free s) (pins : Pins) (dirs : Dirs)
    (acts : List Act) (pc : Nat) (fault : Option Line) (answers : List DriverAnswer) : Unstarted dev free
      { s with pins := pins, dirs := dirs, acts := acts, pc := pc, fault := fault, answers := answers } :=
  ⟨h.cr, h.ftw0, h.ftw1, h.begun, h.dev, h.free, h.deselected⟩

theorem Unstarted.takeAnswer {dev : Device} {free : Nat} {s : State} (h : Unstarted dev free s) :
    Unstarted dev free (takeAnswer s) := h.update _ _ _ _ _ _

theorem Unstarted.raiseIoFailure {dev : Device} {free : Nat} {s : State} (h : Unstarted dev free s) (p : Line) :
    Unstarted dev free (raiseIoFailure p s) :=
  ((h.emit (e := .fail p) (by simp)).update _ _ _ _ _ _).emit (by simp)

/-- A call of construction, whether it completes or fails, writes no register and does not reach the device (R206, R243). -/
theorem Unstarted.performAct {cfg : Cfg} {dev : Device} {free : Nat} {a : Act} {s : State} (ha : a ∈ constructionActs cfg)
    (h : Unstarted dev free s) : Unstarted dev free (performAct a s) := by
  rcases performAct_cases a s with ⟨hl, -⟩ | ⟨q, -, -, he⟩ | ⟨q, -, -, he⟩
  · exact absurd hl (actLine_of_mem_constructionActs ha)
  · rw [he]
    rcases mem_constructionActs ha with ⟨p, rfl⟩ | ⟨p, l, rfl, hne⟩
    · exact (h.takeAnswer.update _ _ _ _ _ _).emit (by simp)
    · exact (h.takeAnswer.update _ _ _ _ _ _).emit hne
  · rw [he]
    exact h.takeAnswer.raiseIoFailure q

/-- Settles O8: the first failing call ends construction's list of calls (`performActs_of_firstFailure`), and wherever construction
ends the block is `Unstarted`. -/
theorem constructionFailsAtTheFailingCall : Obligations.ConstructionFailsAtTheFailingCall := by
  intro cfg dev free rest k p hv hp
  obtain ⟨a, hk, hl⟩ := exists_constructionAct cfg hp
  obtain ⟨hlt, rfl⟩ := List.getElem?_eq_some_iff.mp hk
  have hdone := fun b hb => actLine_of_mem_constructionActs (cfg := cfg) (List.mem_of_mem_take (i := k) (a := b) hb)
  have hlen : ((constructionActs cfg).take k).length = k := List.length_take_of_le hlt.le
  have hblank := unstarted_blankState cfg (List.replicate k .completed ++ .failed :: rest) dev free
  obtain ⟨hcr, hftw0, hftw1, hbegun, hdev, hfree, -⟩ :=
    performActs_keeps (fun b hb t (ht : Unstarted dev free t) => ht.performAct hb) hblank
  obtain ⟨u, hu, htrace⟩ := performActs_of_firstFailure (later := (constructionActs cfg).drop (k + 1)) (rest := rest)
    (s := blankState cfg (List.replicate k .completed ++ .failed :: rest) dev free) hdone hl rfl (by rw [hlen]; rfl)
  rw [← List.drop_eq_getElem_cons hlt, List.take_append_drop] at hu
  refine ⟨_, by rw [construct, if_pos hv, if_neg (by simp)], ?fault, ?pins, hcr, hftw0, hftw1, hbegun, hdev, hfree, ?trace⟩
  case fault => rw [hu, raiseIoFailure_fault]
  case pins => rw [hu, raiseIoFailure_pins]
  case trace =>
    rw [hu, raiseIoFailure_trace, htrace, actEvents_take (es := constructionTrace cfg) rfl]
    simp [blankState]

end Sys2Proof.Proofs

/-! SUPPORT. Construction whose calls all complete (R240, R241): it ends in the stated state, which meets the invariant, and the reset
state is one such state. -/

namespace Sys2Proof.Proofs

open Sys2Proof.Machine Sys2Proof.Safety

/-! ### A list of GPIO calls that all complete -/

theorem nextAnswer_of_take_succ {s : State} {n : Nat} (h : ∀ x ∈ s.answers.take (n + 1), x = DriverAnswer.completed) :
    nextAnswer s = .completed := by
  unfold nextAnswer
  cases ha : s.answers with
  | nil => rfl
  | cons x xs => exact h x (by simp [ha])

/-- GPIO calls that the driver completes all take effect, and use up one answer each (R12, R205). -/
theorem performActs_of_completed {as : List Act} {s : State} (has : ∀ a ∈ as, actLine a ≠ none) (hf : s.fault = none)
    (hans : ∀ x ∈ s.answers.take as.length, x = DriverAnswer.completed) :
    performActs as s = applyActs as { s with answers := s.answers.drop as.length } := by
  induction as generalizing s with
  | nil => rfl
  | cons a as ih =>
    obtain ⟨p, hp⟩ := Option.ne_none_iff_exists'.mp (has a List.mem_cons_self)
    have ha : performAct a s = applyAct a (takeAnswer s) := performAct_completed hp (nextAnswer_of_take_succ hans)
    have hfa : (performAct a s).fault = none := by simpa [ha] using hf
    have htail : ∀ x ∈ (performAct a s).answers.take as.length, x = DriverAnswer.completed := by
      rw [ha, applyAct_answers, takeAnswer_answers, ← List.drop_one, List.take_drop]
      exact fun x hx => hans x (List.mem_of_mem_drop (by rwa [List.length_cons, Nat.add_comm]))
    calc performActs (a :: as) s
        = performActs as (performAct a s) := performActs_cons_of_noFault hfa as
      _ = applyActs as { performAct a s with answers := (performAct a s).answers.drop as.length } :=
        ih (fun b hb => has b (List.mem_cons_of_mem a hb)) hfa htail
      _ = applyActs as { applyAct a (takeAnswer s) with answers := s.answers.drop (as.length + 1) } := by
        rw [ha, applyAct_answers, takeAnswer_answers, List.drop_tail]
      _ = applyActs (a :: as) { s with answers := s.answers.drop (as.length + 1) } := by
        rw [← applyAct_withAnswers]
        rfl

/-! ### The observer during construction -/

/-- No event of construction moves the observer: it starts deselected and with the clock idle, the levels that construction writes
(R128, R240). -/
theorem observe_start_of_mem_constructionTrace {cfg : Cfg} {e : Event} (he : e ∈ constructionTrace cfg) (fresh : Bool) :
    observe cfg fresh (Observer.start cfg) e = (Observer.start cfg, none) := by
  simp only [constructionTrace, List.mem_cons, List.not_mem_nil, or_false] at he
  rcases he with rfl | rfl | rfl | rfl | rfl
  · exact observe_dir ..
  · exact observe_dir ..
  · exact observe_dir ..
  · rfl
  · simp [observe, observeClock, Observer.start]

/-- Events that leave the observer as it is make it emit nothing (R128). -/
theorem observeAll_eq_nil {cfg : Cfg} {fresh : Bool} {o : Observer} {es : List Event}
    (h : ∀ e ∈ es, observe cfg fresh o e = (o, none)) : observeAll cfg fresh o es = [] := by
  induction es with
  | nil => rfl
  | cons e es ih =>
    rw [observeAll, h e List.mem_cons_self]
    exact ih fun b hb => h b (List.mem_cons_of_mem e hb)

/-- The observer starts deselected, so it samples nothing (R128). -/
theorem samplesUnknown_start (cfg : Cfg) (e : Event) : samplesUnknown cfg (Observer.start cfg) e = false := by
  rw [samplesUnknown, takesSample_of_deselected rfl, Bool.false_and]

/-! ### Construction without a failure -/

/-- The five micro-actions of construction set the directions, the select line and the clock, each with its event (R240, R241). -/
theorem applyActs_constructionActs (cfg : Cfg) (answers : List DriverAnswer) (dev : Device) (free : Nat) :
    applyActs (constructionActs cfg) (blankState cfg answers dev free) = State.constructed cfg answers dev free := by
  have hselect := observe_start_of_mem_constructionTrace (cfg := cfg) (e := .write .cs true) (by simp [constructionTrace])
  have hclock := observe_start_of_mem_constructionTrace (cfg := cfg) (e := .write .clk cfg.cpol) (by simp [constructionTrace])
  simp [constructionActs, applyAct, emit, hselect, hclock, samplesUnknown_start, blankState, State.constructed, constructionTrace,
    setDir, setPin, unknownPins]

theorem construct_of_valid {others : List Cfg} {cfg : Cfg} (hv : cfgValid cfg = true)
    (ho : ∀ o ∈ others, sharesPin cfg o = false) (answers : List DriverAnswer) (dev : Device) (free : Nat) :
    construct others cfg answers dev free = .next (performActs (constructionActs cfg) (blankState cfg answers dev free)) := by
  rw [construct, if_pos hv, if_neg (by simpa using ho)]

/-- Settles O7: the five calls are performed (`performActs_of_completed`), and their effects together are the stated state
(`applyActs_constructionActs`). -/
theorem constructionGivesTheStatedState : Obligations.ConstructionGivesTheStatedState := by
  intro others cfg answers dev free hv ho hans
  have hperf : performActs (constructionActs cfg) (blankState cfg answers dev free) =
      applyActs (constructionActs cfg) (blankState cfg (answers.drop 5) dev free) :=
    performActs_of_completed (fun a ha => actLine_of_mem_constructionActs ha) rfl hans
  rw [construct_of_valid hv ho, hperf, applyActs_constructionActs]

theorem cfgValid_defaultCfg : cfgValid defaultCfg = true := by decide

/-- Settles O11: the default configuration is valid, so reset is an instance of O7, and the events of construction, which are the
reset state's trace, do not move the observer. -/
theorem resetIsAConstructedInstance : Obligations.ResetIsAConstructedInstance :=
  ⟨constructionGivesTheStatedState [] defaultCfg [] Device.powerUp 0 cfgValid_defaultCfg (by simp) (by simp),
    observeAll_eq_nil fun _ he => observe_start_of_mem_constructionTrace he false⟩

/-! ### The invariant at the start -/

theorem hasBits_zero (mask : Word) : hasBits 0#16 mask = false :=
  hasBits_eq_false.mpr BitVec.zero_and

theorem synced_constructed (cfg : Cfg) (answers : List DriverAnswer) (dev : Device) (free : Nat) :
    Synced (State.constructed cfg answers dev free) := ⟨rfl, rfl, rfl, rfl⟩

/-- A constructed instance has `CR` zero, no command in progress, the clock idle and the select line high (R241). -/
theorem inv_constructed {cfg : Cfg} (hv : cfgValid cfg = true) (answers : List DriverAnswer) (dev : Device) (free : Nat) :
    Inv (State.constructed cfg answers dev free) where
  valid := hv
  reserved := hasBits_zero _
  reservedActs := fun _ hmem => absurd hmem List.not_mem_nil
  pcInRange := .inr ⟨rfl, rfl⟩
  bounded := Nat.zero_le _
  failed := fun hne => absurd rfl hne
  running := fun _ =>
    { dirs := rfl
      synced := synced_constructed cfg answers dev free
      resetClears := hasBits_zero _
      clockReturns := rfl
      selectReturns := rfl }

/-- Settles O57: nothing remains of a command at the start (`inv_constructed`), and the default configuration is valid. -/
theorem constructedInstancesMeetTheInvariant : Obligations.ConstructedInstancesMeetTheInvariant :=
  ⟨fun _ answers dev free hv => inv_constructed hv answers dev free, inv_constructed cfgValid_defaultCfg [] Device.powerUp 0⟩

end Sys2Proof.Proofs
